-- ==== Sys2Proof/Word.lean ====
section
/-! DEFINITION. The machine words the manual treats as bits, and the little-endian layout of
multi-byte fields (00_scope.md, Conventions, Shared memory: "Multi-byte fields in shared memory are
little-endian"). -/

namespace Sys2Proof

/-- One byte of shared RAM or of a reader frame. -/
abbrev Byte := BitVec 8

/-- One 32-bit word: a host register, an address on the memory link. -/
abbrev Word := BitVec 32

/-- The mask of the doors' pins, bit `d` for door `d`. -/
abbrev DoorPins := BitVec 12

/-- The low byte of a number. -/
def byteOf (n : Nat) : Byte := BitVec.ofNat 8 n

/-- A number as two bytes, the low one first. -/
def le16 (n : Nat) : List Byte := [byteOf n, byteOf (n / 256)]

/-- A number as four bytes, the low one first. -/
def le32 (n : Nat) : List Byte :=
  [byteOf n, byteOf (n / 256), byteOf (n / 65536), byteOf (n / 16777216)]

/-- The number that bytes spell, the low one first. -/
def ofLe : List Byte → Nat
  | [] => 0
  | b :: rest => b.toNat + 256 * ofLe rest

/-- A flag as a number, 1 when set. -/
def bit (b : Bool) : Nat := if b then 1 else 0

/-- Flags packed into a byte, the first flag in bit 0 (R178). -/
def packFlags : List Bool → Nat
  | [] => 0
  | b :: rest => bit b + 2 * packFlags rest

/-- A saturating counter's next value (00_scope.md: "Saturating counters stop at their largest value"). -/
def satAdd (top a b : Nat) : Nat := min top (a + b)

end Sys2Proof
end

