-- ==== Sys2Proof/Syntax.lean ====
section
/-! DEFINITION. The commands of the LB2240: one constructor of `Instr` for each row of
spec/opcode_table.json, with the row's operands. A request row (ENROL to INJECT) carries the parameters
of the work slot that R178 lays out, unchecked, as the slot's bytes give them; a row that stands for an
event at a pin or of the part's own timers carries what the pins show at it. -/

namespace Sys2Proof

/-- A door, 0 to 11. -/
abbrev DoorNo := Fin 12
/-- A reader line, 0 to 23. -/
abbrev LineNo := Fin 24
/-- A zone, 0 to 15; 0 is outside. -/
abbrev ZoneNo := Fin 16
/-- A bell circuit, 0 to 7. -/
abbrev CircuitNo := Fin 8

/-- A timestamp: a plant second count and a beat of 0 to 15 (00_scope.md, Time). -/
structure Stamp where
  sec : Nat
  beat : Nat
deriving DecidableEq, Repr

/-- What the shared RAM holds after the host's own writes: the bytes the host has written since the
command before, in the order it wrote them (notes/assumptions/2.md). -/
abbrev HostWrites := List (Word × Byte)

/-- The output area a request names: its address and its capacity in records (R168). -/
structure OutArea where
  addr : Word
  cap : Nat
deriving DecidableEq, Repr

/-- The ENROL parameters, and an entry of the roster table (R178). The assignment is its kind byte
(NONE 0, CREW 1, SHIFT 2) and its number byte. -/
structure EnrolParams where
  slot : Nat
  assignKind : Nat
  assignNo : Nat
  badge : Nat
  issue : Nat
  rule : Nat
  grade : Nat
  profile : Nat
  clearance : Nat
  suspended : Bool
  unschedOk : Bool
deriving DecidableEq, Repr

/-- The AMEND parameters: the field-present mask, bit 0 badge, 1 issue level, 2 assignment, 3 pay rule,
4 grade, 5 profile, 6 clearance, 7 SUSPENDED, 8 UNSCHEDULED_OK, and a value for each (R178). The slot
is the value's slot. -/
structure AmendParams where
  mask : BitVec 16
  vals : EnrolParams
deriving DecidableEq, Repr

/-- The INJECT parameters (R178): event kind PRESENT 0, CONTACT 1, REX 2. -/
structure InjectParams where
  event : Nat
  unit : Nat
  contact : Nat
  issue : Nat
  site : Nat
  badge : Nat
deriving DecidableEq, Repr

/-- The body of a request, as the work slot gives it (R178, Request kind). -/
inductive Req where
  | enrol (p : EnrolParams)
  | amend (p : AmendParams)
  | withdraw (slot : Nat) (force : Bool) (out : OutArea)
  | relocate (slot zone : Nat)
  | forgive
  | statement (first last : Nat) (reset : Bool) (out : OutArea)
  | readStatus (out : OutArea)
  | setTime (sec : Nat)
  | calSet (day type : Nat)
  | calClear (day : Nat)
  | zoneSet (zone : Nat) (present : Bool) (ceiling capacity : Nat)
  | doorMode (door mode : Nat)
  | doorPulse (door duration : Nat)
  | clearFault (door : Nat)
  | ring (mask : BitVec 8) (pattern duration : Nat)
  | inject (p : InjectParams)
deriving DecidableEq, Repr

/-- A presentation (R46): what a badge read carries, and its presentation time. -/
structure Presentation where
  site : Nat
  badge : Nat
  issue : Nat
  time : Stamp
deriving DecidableEq, Repr

/-- How an error response on the memory link reaches the part (R175; notes/assumptions/8.md). -/
inductive LinkFault where
  /-- The error meets the access now in flight, after `done` of its accesses have been answered: the
  accesses of a load, or the entries of a muster write. -/
  | inFlight (done : Nat)
  /-- The coming accesses, made inside the commands that follow, are answered as listed, `true` an
  error response; after the list every access is answered well. -/
  | ahead (answers : List Bool)
deriving DecidableEq, Repr

/-- The commands: one constructor for each row of spec/opcode_table.json. -/
inductive Instr where
  /-- HARD_RESET (R182): RESET_N asserted and released. At the release bit `d` of `circuits` tells that
  the contact circuit of door `d` is closed, and `fire` that FIRE_IN is asserted. -/
  | hardReset (circuits : DoorPins) (fire : Bool)
  /-- CLEAR_DONE (R182). -/
  | clearDone
  /-- BEAT_END (R1): bit `d` of `readbacks` tells that the readback of door `d` reads RELEASED at this
  beat end (R98). -/
  | beatEnd (readbacks : DoorPins)
  /-- SLEW_END (R8). -/
  | slewEnd
  /-- SYNC_MARK (R7): the pulse has stayed asserted for 10 ms and is accepted. -/
  | syncMark
  /-- HOLDOVER_EXPIRY (R13). -/
  | holdoverExpiry
  /-- HALT (R181). In LOADING `rosterBegun` tells whether the load had reached the roster step (R42). -/
  | halt (rosterBegun : Bool)
  /-- LOAD (R162), written with the RUN bit or without. -/
  | load (withRun : Bool) (host : HostWrites)
  /-- LOAD_COMPLETE (R162). -/
  | loadComplete (host : HostWrites)
  /-- RUN (R182). -/
  | run (host : HostWrites)
  /-- NUDGE (R165). -/
  | nudge (host : HostWrites)
  /-- ACKFIRE (R155). -/
  | ackfire
  /-- EVENTS_CLEAR (R183): a 32-bit write to EVENTS. -/
  | eventsClear (value : Word)
  /-- REGISTER_WRITE (R180): a write of `width` bits at a byte offset of the register window. -/
  | registerWrite (offset width : Nat) (value : Word)
  /-- POLL (R165): the poll timer expires. -/
  | poll (host : HostWrites)
  /-- ENROL (R32); `notify` is the slot's NOTIFY flag, here and in the rows that follow. -/
  | enrol (notify : Bool) (p : EnrolParams)
  /-- AMEND (R33). -/
  | amend (notify : Bool) (p : AmendParams)
  /-- WITHDRAW (R35). -/
  | withdraw (notify : Bool) (slot : Nat) (force : Bool) (out : OutArea)
  /-- WITHDRAW_DEFERRED_RESUME (R37). -/
  | withdrawDeferredResume
  /-- RELOCATE (R38). -/
  | relocate (notify : Bool) (slot zone : Nat)
  /-- FORGIVE (R39). -/
  | forgive (notify : Bool)
  /-- STATEMENT (R132). -/
  | statement (notify : Bool) (first last : Nat) (reset : Bool) (out : OutArea)
  /-- STATEMENT_COPY (R133). -/
  | statementCopy
  /-- READ_STATUS (R169). -/
  | readStatus (notify : Bool) (out : OutArea)
  /-- OUTPUT_WRITE_DONE (R168). -/
  | outputWriteDone
  /-- SET_TIME (R15). -/
  | setTime (notify : Bool) (sec : Nat)
  /-- CAL_SET (R18). -/
  | calSet (notify : Bool) (day type : Nat)
  /-- CAL_CLEAR (R19). -/
  | calClear (notify : Bool) (day : Nat)
  /-- ZONE_SET (R73). -/
  | zoneSet (notify : Bool) (zone : Nat) (present : Bool) (ceiling capacity : Nat)
  /-- DOOR_MODE (R96). -/
  | doorMode (notify : Bool) (door mode : Nat)
  /-- DOOR_PULSE (R97). -/
  | doorPulse (notify : Bool) (door duration : Nat)
  /-- CLEAR_FAULT (R100). -/
  | clearFault (notify : Bool) (door : Nat)
  /-- RING (R149). -/
  | ring (notify : Bool) (mask : BitVec 8) (pattern duration : Nat)
  /-- INJECT (R64). -/
  | inject (notify : Bool) (p : InjectParams)
  /-- LINK_ERROR (R175). -/
  | linkError (at_ : LinkFault)
  /-- FRAME_END (R45): the bytes gathered on the line, whether one had a framing error, and the plant
  time at which the last byte was received (R46). -/
  | frameEnd (line : LineNo) (bytes : List Byte) (framing : Bool) (lastByte : Stamp)
  /-- READER_OFFLINE (R48). -/
  | readerOffline (line : LineNo)
  /-- PRESENTATION (R53): a presentation of a line frame is taken. -/
  | presentation (line : LineNo) (p : Presentation)
  /-- CONTACT_CHANGE (R83): the debounced contact circuit of the door is now closed, or open. -/
  | contactChange (door : DoorNo) (closed : Bool)
  /-- REX_PRESS (R94): a debounced assertion of the door's REX input. -/
  | rexPress (door : DoorNo)
  /-- RELEASE_EXPIRY (R89). -/
  | releaseExpiry (door : DoorNo)
  /-- HELD_EXPIRY (R92). -/
  | heldExpiry (door : DoorNo)
  /-- SETTLE_CHECK (R98). -/
  | settleCheck (door : DoorNo)
  /-- DRIFT_FINDING (R98). -/
  | driftFinding (door : DoorNo)
  /-- DEADLINE_REACHED (R111). -/
  | deadlineReached
  /-- WAITING_CLOSING_SERVED (R113). -/
  | waitingClosingServed
  /-- BELL_ENTRY_REACHED (R142). -/
  | bellEntryReached
  /-- SOUNDING_END (R143). -/
  | soundingEnd (circuit : CircuitNo)
  /-- FIRE_ON (R153): an accepted assertion of FIRE_IN. -/
  | fireOn
  /-- FIRE_OFF (R154): an accepted deassertion of FIRE_IN. -/
  | fireOff
  /-- MUSTER_WRITE_START (R157). -/
  | musterWriteStart
  /-- MUSTER_WRITE_DONE (R158). -/
  | musterWriteDone
  /-- SYNC_MARK_LEADING_EDGE (R6): `quiet` tells that the input had been seen deasserted for 10 ms
  before this edge. -/
  | syncMarkLeadingEdge (quiet : Bool)
deriving DecidableEq, Repr

end Sys2Proof
end

