-- ==== Sys2Proof/Config.lean ====
section
/-! DEFINITION. What the part fixes once: its sizes, the bounds of its numbers, what unwritten shared
RAM reads as, and the FREE VALUES, opaque constants that stand for every value the manual leaves
open (notes/assumptions). -/

namespace Sys2Proof.Config

/-- The record units of the record RAM (R24). -/
def recordUnits : Nat := 4096

/-- The holding queue's places while W is unfixed (R24): units 3840 to 4095. -/
def unfixedPlaces : Nat := 256

/-- The largest plant second, the last of day 32767 (00_scope.md, Time). -/
def lastSecond : Nat := 2831155199

/-- The largest plant day (00_scope.md, Time). -/
def lastDay : Nat := 32767

/-- Seconds in a plant day. -/
def daySeconds : Nat := 86400

/-- Beats from a processed mark to HOLDOVER (R13). -/
def holdoverBeats : Nat := 1200

/-- Beats over which a slew is spread (R8). -/
def slewBeats : Nat := 960

/-- Beats of silence after which a reader line is OFFLINE (R48). -/
def supervisionBeats : Nat := 96

/-- Beats of the hold-off window (R55): 3 s. -/
def holdOffBeats : Nat := 48

/-- Beat ends of a settle check (R98). -/
def settleBeats : Nat := 4

/-- The all-ones 32-bit field: no time (R5), an invalid badge (R32). -/
def allOnes : Nat := 4294967295

/-- What a byte of shared RAM that nothing has written reads as.
DESIGN CHOICE (notes/assumptions/3.md): the manual gives shared RAM no contents; unsafe. -/
def unlistedByte : Byte := 0

/-- FREE VALUE: the field number `field` of the `draw`-th record or slot return, where the manual
assigns the field a place but states no value for it (notes/assumptions/4.md); field 4 is how many entries
a muster write has written at a HALT (notes/assumptions/40.md). No body: nothing can be
proved of it. -/
opaque freeWord (draw field : Nat) : Word

/-- FREE VALUE: the day type that a loaded week pattern or exception byte above 7 is read as; the
manual gives the range 0 to 7 and states no treatment of other bytes (notes/assumptions/5.md). -/
opaque dayTypeAbove7 (value : Nat) : Fin 8

end Sys2Proof.Config
end

