-- ==== Sys2Proof/Machine/State.lean ====
section
/-! DEFINITION. The state of the LB2240, block by block as 00_scope.md ("Block overview") gives them,
with the shared RAM, the queue of waiting commands, and the state after hard reset. Every field is
plain data. INVENTORY.md lists each with its rule and its reset value. -/

namespace Sys2Proof.Machine

/-! ### Names of states and settings (R178, Codes) -/

/-- Run states (R181), coded in this order. -/
inductive RunState where
  | clearing | halted | loading | running | isolated
deriving DecidableEq, Repr

/-- Sync states (R12), coded in this order. -/
inductive SyncState where
  | unsynced | locked | holdover
deriving DecidableEq, Repr

/-- Fire states (R152), coded in this order. -/
inductive FireState where
  | clear | alarm | hold
deriving DecidableEq, Repr

/-- Door states (R85), coded in this order. -/
inductive DoorState where
  | inactive | secure | released | open_ | held | forced | free | egress | fault
deriving DecidableEq, Repr

/-- Door modes (R95), coded in this order. -/
inductive DoorMode where
  | card | free | locked
deriving DecidableEq, Repr

/-- Anti-passback settings (R72), coded in this order. -/
inductive Apb where
  | off | soft | hard
deriving DecidableEq, Repr

/-- Contact polarities (R83), coded in this order. -/
inductive Polarity where
  | nc | no
deriving DecidableEq, Repr

/-- Contact states (R83), coded in this order. -/
inductive Contact where
  | closed | open_
deriving DecidableEq, Repr

/-- A relay's command or readback (R86), coded in this order. -/
inductive Relay where
  | locked | released
deriving DecidableEq, Repr

/-- Kinds of a relay finding (R98), coded in this order. -/
inductive FaultKind where
  | settle | drift
deriving DecidableEq, Repr

/-- Alarms that a DOOR_RESTORED record ends (R93), coded in this order. -/
inductive Alarm where
  | forced | held | fault
deriving DecidableEq, Repr

/-- Zone types (R65), coded in this order. -/
inductive ZoneType where
  | floor | muster | closed
deriving DecidableEq, Repr

/-- Roles of a CLOCK_ONLY reader (R51), coded in this order. -/
inductive Role where
  | in_ | out | toggle
deriving DecidableEq, Repr

/-- A reader descriptor's kind with its content (R51). -/
inductive ReaderKind where
  | unused
  | doorEntry (d : DoorNo)
  | doorExit (d : DoorNo)
  | clockOnly (role : Role)
  | musterPoint (zone : ZoneNo)
deriving DecidableEq, Repr

/-- Rounding modes of a pay rule (R122), coded in this order. -/
inductive Rounding where
  | favourPlant | nearest
deriving DecidableEq, Repr

/-- Bell patterns (R144), coded in this order. -/
inductive Pattern where
  | steady | pulsed | triple
deriving DecidableEq, Repr

/-- Causes of a step of plant time (R11), coded in this order. -/
inductive StepCause where
  | sync | setTime | load
deriving DecidableEq, Repr

/-- Causes of an AUTO_CLOSE (R112), coded in this order. -/
inductive CloseCause where
  | deadline | withdraw
deriving DecidableEq, Repr

/-- Causes of a lapse (R80), coded in this order. -/
inductive LapseCause where
  | expiry | fire | halt | mode | fault
deriving DecidableEq, Repr

/-- Punch kinds (R78); each takes the code of its record. -/
inductive PunchKind where
  | punchIn | punchOut | reentry | strayOut | passage
deriving DecidableEq, Repr

/-- Refusal reasons of a REFUSED record (R53), numbered from 1 in this order (R178). -/
inductive Reason where
  | badSite | unknownBadge | issueMismatch | suspended | doorLocked | doorFault | zoneAbsent
  | zoneClosed | noProfile | profile | clearance | wrongZone | zoneFull | notScheduled | alreadyOn
  | notOn
deriving DecidableEq, Repr

/-- The lamps of an ANSWER frame (R47), coded from 1 in this order. -/
inductive Lamp where
  | green | red | amber
deriving DecidableEq, Repr

/-- The kinds of frame a reader sends (R45). -/
inductive FrameKind where
  | present | hello | tamper
deriving DecidableEq, Repr

/-- The twelve event causes (R183), bit 0 first. -/
inductive Event where
  | loadDone | loadFailed | workDone | journal | holding | holdFull | linkError | doorAlarm | fireOn
  | fireOff | syncChange | clockStep
deriving DecidableEq, Repr

/-- The status codes of a returned request (R178). -/
inductive Status where
  | done | partial_ | haltedPartial | kindUnknown | range | noOutput | syncOwns | noRoom | notFound
  | slotInUse | badgeInUse | slotEmpty | notSettled | grantPending | zoneAbsent | zoneFull
  | fireActive | notRehearsal | doorLocked | doorFault | stillFaulted
deriving DecidableEq, Repr

/-- The result codes of a load (R178), coded in this order. -/
inductive LoadCode where
  | ok | inProgress | align | length | order | duplicate | zoneRef | doorRef | shiftRef | quantum
  | shiftLength | capacityChange | roster | noTime | link
deriving DecidableEq, Repr

/-- The table identifiers of a load (R178), coded in this order. -/
inductive TableId where
  | setup | dayType | week | exceptions | shift | rota | payRule | grade | zone | door | reader
  | bellPlan | roster
deriving DecidableEq, Repr

/-! ### The plant clock unit (chapter 1) -/

/-- A slew in progress (R8): its direction, the cycles every slewed beat gets, the beats still to be
slewed, and how many of those still get one cycle more. -/
structure Slew where
  lengthen : Bool
  base : Nat
  left : Nat
  extra : Nat
deriving DecidableEq, Repr

/-- The time base, the sync state and the mark in flight. -/
structure Clock where
  /-- Plant time (R1). -/
  now : Stamp
  /-- CLOCK_VALID (R5). -/
  valid : Bool
  /-- Block index, 0 to 4095 (R2). -/
  block : Nat
  /-- Rate term ρ, −255 to +255 (R3). -/
  rho : Int
  slew : Option Slew
  sync : SyncState
  /-- Holdover timer in beats (R13); 0 while LOCKED is an expiry not yet taken, else stopped. -/
  holdover : Nat
  /-- Last deviation d (R7). -/
  lastDev : Int
  /-- Position taken at the leading edge of a pulse not yet accepted (R6). -/
  edge : Option Stamp
  /-- The input has been seen deasserted for 10 ms since the last accepted mark or the release of
  RESET_N, so a mark can be accepted (R6). -/
  markReady : Bool
deriving DecidableEq, Repr

/-- One entry of the shift table (R21). -/
structure Shift where
  valid : Bool
  start : Nat
  length : Nat
deriving DecidableEq, Repr

/-- One entry of the crew rota table (R21): cycle length, anchor day, rota entries. -/
structure Crew where
  cycle : Nat
  anchor : Nat
  rota : List Nat
deriving DecidableEq, Repr

/-- The calendar, the shift table and the crew rota table (R16, R17, R21); empty lists are the empty
tables. -/
structure Calendar where
  week : List Nat
  epochWeekday : Nat
  holidays : List Bool
  exceptions : List (Nat × Nat)
  shifts : List Shift
  crews : List Crew
deriving DecidableEq, Repr

/-! ### The worker table (chapter 2) -/

/-- An assignment (R22, R31). -/
inductive Assignment where
  | none_
  | crew (c : Nat)
  | shift (s : Nat)
deriving DecidableEq, Repr

/-- A captured shift (day, shift, Ts, Te) (R23). -/
structure ShiftRun where
  day : Nat
  shift : Nat
  ts : Nat
  te : Nat
deriving DecidableEq, Repr

/-- A last shift instance key (R106). -/
inductive ShiftKey where
  | scheduled (day shift : Nat)
  | unscheduled (day : Nat)
deriving DecidableEq, Repr

/-- An open interval (R28) with its auto-close deadline and waiting mark (R110, R113). `due` marks a
deadline that counting has reached and DEADLINE_REACHED has not yet acted on (R111). -/
structure OpenInterval where
  tIn : Nat
  captured : Option ShiftRun
  rule : Nat
  late : Bool
  deadline : Nat
  due : Bool
  waiting : Bool
deriving DecidableEq, Repr

/-- One worker record (2.2). The clock state is ON exactly while `interval` is present (R28). -/
structure Worker where
  badge : Nat
  issue : Nat
  assignment : Assignment
  rule : Nat
  grade : Nat
  profile : Nat
  clearance : Nat
  suspended : Bool
  unschedOk : Bool
  location : ZoneNo
  interval : Option OpenInterval
  lastKey : Option ShiftKey
  cday : Nat
  breakTaken : Bool
  lastEOut : Nat
  reg : Nat
  night : Nat
  ot : Nat
  hol : Nat
  saturated : Bool
  muster : Bool
deriving DecidableEq, Repr

/-- The worker table: W once fixed (R24), the in-use slots in ascending order with their records, and
the badge index in ascending order of badge (R30). -/
structure WorkerTable where
  capacity : Option Nat
  workers : List (Nat × Worker)
  index : List (Nat × Nat)
deriving DecidableEq, Repr

/-! ### The reader line controller (chapter 3) -/

/-- A reader descriptor (R51). -/
structure ReaderDesc where
  kind : ReaderKind
  level : Nat
deriving DecidableEq, Repr

/-- The lamp and duration of an ANSWER frame (R47). -/
structure Answer where
  lamp : Lamp
  duration : Nat
deriving DecidableEq, Repr

/-- One reader line (R48, R49, R50, R51, R55). `timer` 0 while ONLINE is an expiry not yet taken;
`waiting` holds the line's presentations not yet taken, in the order their frames ended (R46); `answer`
is the last ANSWER sent. -/
structure Line where
  online : Bool
  timer : Option Nat
  bad : Nat
  tamper : Bool
  holdOff : Option (Nat × Stamp)
  desc : ReaderDesc
  waiting : List Presentation
  answer : Option Answer
deriving DecidableEq, Repr

/-! ### The passage controller (chapter 4) -/

/-- One zone's table entry (R65) and its two counts (R67, R68). -/
structure Zone where
  present : Bool
  type : ZoneType
  capacity : Nat
  ceiling : Nat
  occupancy : Nat
  reserved : Nat
deriving DecidableEq, Repr

/-- A grant (4.5). -/
structure Grant where
  slot : Nat
  line : LineNo
  inward : Bool
  source : ZoneNo
  target : ZoneNo
  time : Stamp
  kind : PunchKind
  apbSoft : Bool
deriving DecidableEq, Repr

/-! ### The door controller (chapter 5) -/

/-- One entry of the door table (R85). -/
structure DoorEntry where
  fromZone : ZoneNo
  toZone : ZoneNo
  mode : DoorMode
  apb : Apb
  clocking : Bool
  release : Nat
  heldLimit : Nat
  polarity : Polarity
  rexEnable : Bool
  supervised : Bool
  profiles : BitVec 64
deriving DecidableEq, Repr

/-- A relay mismatch that a beat end has found (R98): its kind, and the command and the readback that were
compared. -/
structure RelayFinding where
  kind : FaultKind
  cmd : Relay
  readback : Relay
deriving DecidableEq, Repr

/-- One door (5.1). A release, held or settle timer at 0 is an expiry not yet taken; `found` is a finding
not yet taken. `circuit` is the accepted level of the real contact input, true when its circuit is closed;
`readback` is the level at the last beat end; `faultTime` is the plant time of the finding that set the
mark (R100). A REX window runs while the door is INACTIVE or FAULT with its release timer running. -/
structure Door where
  entry : DoorEntry
  state : DoorState
  grant : Option Grant
  release : Option Nat
  held : Option Nat
  cmd : Relay
  settle : Option Nat
  disagree : Nat
  found : Option RelayFinding
  mark : Bool
  faultTime : Stamp
  circuit : Bool
  contact : Contact
  readback : Relay
  alarmStart : Option Stamp
  openStart : Option Stamp
deriving DecidableEq, Repr

/-! ### The pay calculator (chapter 7) -/

/-- One pay rule (R119). -/
structure PayRule where
  admitMin : Nat
  graceLate : Nat
  graceOut : Nat
  quantum : Nat
  rounding : Rounding
  breakMin : Nat
  breakAt : Nat
  overtimeAt : Nat
  nightMul : Nat
  otMul : Nat
  holMul : Nat
deriving DecidableEq, Repr

/-- The pay rule table, the grade rate table and the night window (R119, R120). -/
structure PayTables where
  rules : List PayRule
  grades : List Nat
  nStart : Nat
  nEnd : Nat
deriving DecidableEq, Repr

/-! ### The bell scheduler (chapter 8) -/

/-- One entry of the bell plan (R139). -/
structure BellEntry where
  sec : Nat
  days : BitVec 8
  circuits : BitVec 8
  pattern : Pattern
  duration : Nat
deriving DecidableEq, Repr

/-- A bell circuit's state (R143). A sounding with 0 beats remaining is one whose end is not yet
taken. -/
inductive Circuit where
  | idle
  | sounding (pattern : Pattern) (total remaining : Nat)
  | evacuate (phase : Nat)
deriving DecidableEq, Repr

/-- The bell plan, the pass time H (R141), the entries that counting has reached and
BELL_ENTRY_REACHED has not yet acted on, each with its day, and the eight circuits. -/
structure Bells where
  plan : List BellEntry
  passed : Nat
  due : List (Nat × BellEntry)
  circuits : Vector Circuit 8
deriving DecidableEq, Repr

/-! ### The fire unit (chapter 9) -/

/-- The fire unit (R152, R153, R156). `deferred` is the FIRE_ON record of an assertion accepted in
CLEARING, kept for clear done: its captured time, its lapse count and its REPEAT flag. -/
structure FireUnit where
  state : FireState
  captured : Option Stamp
  musterPending : Bool
  evacMask : BitVec 8
  deferred : Option (Stamp × Nat × Bool)
deriving DecidableEq, Repr

/-! ### The memory link controller (chapter 10) -/

/-- The fields that every passage or punch record carries, P of R178. -/
structure PassageInfo where
  slot : Nat
  badge : Nat
  issue : Nat
  door : Option DoorNo
  line : LineNo
  inward : Bool
  oldLocation : ZoneNo
  newLocation : ZoneNo
  time : Stamp
  apbSoft : Bool
deriving DecidableEq, Repr

/-- What a closing hands back (R130): the effective times, the four additions, the break deducted, the
grade found, and the flags. -/
structure ClosingResult where
  eIn : Nat
  eOut : Nat
  reg : Nat
  night : Nat
  ot : Nat
  hol : Nat
  breakMin : Nat
  grade : Nat
  late : Bool
  leftEarly : Bool
  missedOut : Bool
  tookBreak : Bool
  saturated : Bool
deriving DecidableEq, Repr

/-- A record's kind with what it carries (R178, Journal entries). -/
inductive RecordBody where
  | punchIn (p : PassageInfo) (captured : Option ShiftRun) (rule deadline : Nat) (late newRun : Bool)
  | punchOut (p : PassageInfo) (tIn : Nat) (captured : Option ShiftRun) (c : ClosingResult)
  | reentry (p : PassageInfo)
  | strayOut (p : PassageInfo)
  | passage (p : PassageInfo)
  | lapsed (slot badge : Nat) (door : DoorNo) (line : LineNo) (inward : Bool) (kind : PunchKind)
      (cause : LapseCause) (time : Stamp)
  | refused (slot : Option Nat) (badge issue : Nat) (line : LineNo) (door : Option DoorNo)
      (reason : Reason)
  | autoClose (slot badge issue : Nat) (cause : CloseCause) (location : ZoneNo) (i : OpenInterval)
      (c : ClosingResult)
  | mustered (slot badge : Nat) (line : LineNo) (zone location : ZoneNo) (on again : Bool)
  | holdGap (gap lost : Nat)
  | clockStep (old : Option Stamp) (cause : StepCause)
  | syncState (old new : SyncState) (rho dev : Int)
  | readerOffline (line : LineNo) (bad : Nat)
  | readerOnline (line : LineNo) (kind : FrameKind)
  | readerTamper (line : LineNo) (opened : Bool)
  | doorForced (door : DoorNo) (mode : DoorMode)
  | doorHeld (door : DoorNo) (limit : Nat) (alarmStart : Stamp)
  | doorRestored (door : DoorNo) (alarm : Alarm) (alarmStart : Stamp)
  | doorFault (door : DoorNo) (kind : FaultKind) (cmd readback : Relay) (state : DoorState)
  | bellSkipped (oldSec count firstDay firstEntry lastDay lastEntry : Nat)
  | fireOn (run : RunState) (lapses : Nat) (again : Bool)
  | fireOff (captured : Stamp)
  | fireAck (captured : Stamp) (cleared : Nat) (unwritten : Bool)
  | musterWritten (captured : Stamp) (entries total : Nat) (truncated noArea : Bool)
deriving DecidableEq, Repr

/-- A record as placed (R170): its sequence number, the time its header carries (R178), and its body.
`draw` numbers the free values of its unstated fields (the model's own). -/
structure Record where
  seq : Nat
  time : Stamp
  body : RecordBody
  draw : Nat
deriving DecidableEq, Repr

/-- A statement record (R133), with the amounts of R131. -/
structure StatementRec where
  slot : Nat
  issue : Nat
  saturated : Bool
  on : Bool
  latePending : Bool
  reset : Bool
  badge : Nat
  reg : Nat
  night : Nat
  ot : Nat
  hol : Nat
  regCents : Nat
  nightCents : Nat
  otCents : Nat
  holCents : Nat
  grade : Nat
  rule : Nat
  location : ZoneNo
  time : Stamp
deriving DecidableEq, Repr

/-- The held output record (R168). -/
inductive HeldOutput where
  | statement (r : StatementRec)
  | snapshot (bytes : List Byte)
deriving DecidableEq, Repr

/-- How far a request in progress has come (R166): taken and not yet acted on by its block, a forced
WITHDRAW deferred (R37), a CLEAR_FAULT whose check runs (R100), or a request that writes output. -/
inductive Stage where
  | taken | deferred | checking | output
deriving DecidableEq, Repr

/-- The request in progress (R166). `cursor` and `written` are the statement's (R132), and `written`
also counts the output records of the others (R168). -/
structure Request where
  req : Req
  notify : Bool
  stage : Stage
  cursor : Nat
  written : Nat
deriving DecidableEq, Repr

/-- A return not yet written (R167). A count or resume index the manual does not state is absent and
is written as a free value, numbered by `draw` (the model's own). -/
structure Return where
  status : Status
  count : Option Nat
  resume : Option Nat
  notify : Bool
  draw : Nat
deriving DecidableEq, Repr

/-- One worker of the muster snapshot (R158). -/
structure MusterEntry where
  slot : Nat
  zone : ZoneNo
  on : Bool
  flagged : Bool
  badge : Nat
deriving DecidableEq, Repr

/-- A muster write in progress (R157, R158, R159): its snapshot, the write time, the captured fire
time, the area, and the position of the next entry. -/
structure MusterWrite where
  entries : List MusterEntry
  writeTime : Stamp
  captured : Stamp
  area : Word
  capacity : Nat
  next : Nat
deriving DecidableEq, Repr

/-- The setup values in force that no other block holds (R163, R164). -/
structure Setup where
  site : Nat
  openLimit : Nat
  workList : Word
  workLog : Nat
  journal : Word
  journalLog : Nat
  threshold : Nat
  poll : Nat
  musterArea : Word
  musterCapacity : Nat
deriving DecidableEq, Repr

/-- The memory link controller. `reserved` is V, the holding-queue places reserved by grants (R170).
`contWritten` tells that the continuation entry of the head record already carries 0xF1 (R175). `draws`
numbers the free values drawn (the model's own). -/
structure Link where
  setup : Option Setup
  workPos : Nat
  journalPos : Nat
  fill : Nat
  queue : List Record
  reserved : Nat
  holdGap : Nat
  lost : Nat
  seq : Nat
  contWritten : Bool
  request : Option Request
  output : Option HeldOutput
  ret : Option Return
  muster : Option MusterWrite
  pollTimer : Option Nat
  draws : Nat
deriving DecidableEq, Repr

/-! ### The control registers (chapter 11) -/

/-- The run state, CONFIG_VALID, the RUN mark of a load (R179), and the registers the host writes. -/
structure Regs where
  run : RunState
  configValid : Bool
  runMark : Bool
  setupAddr : Word
  events : BitVec 12
  eventEn : BitVec 12
  eventLine : BitVec 12
deriving DecidableEq, Repr

/-- The mode word in force (R6, R63, R147). -/
structure ModeWord where
  rehearsal : Bool
  bellsOff : Bool
  syncEnable : Bool
deriving DecidableEq, Repr

/-- The shared RAM: (address, byte) pairs in rising order of address, none equal to what an unlisted
address reads as. -/
abbrev Memory := List Host.Cell

/-- The canonical form of the shared RAM: addresses strictly rising from `lo` on, within 32 bits, and
no byte listed that an unlisted address reads as. -/
def Memory.wfFrom : Nat → Memory → Bool
  | _, [] => true
  | lo, (a, b) :: rest =>
    lo ≤ a && a < 4294967296 && b != Config.unlistedByte && Memory.wfFrom (a + 1) rest

/-- The canonical form of the shared RAM. -/
def Memory.wf (m : Memory) : Bool := Memory.wfFrom 0 m

/-- The machine: the eleven blocks, the mode word in force, the shared RAM, the answers the memory
link gives to the accesses to come (true an error response; well answered past the list's end), and
the queue of the commands that wait, first in, first out. -/
structure State where
  clock : Clock
  mode : ModeWord
  cal : Calendar
  table : WorkerTable
  lines : Vector Line 24
  zones : Vector Zone 15
  doors : Vector Door 12
  pay : PayTables
  bells : Bells
  fire : FireUnit
  link : Link
  regs : Regs
  ram : Memory
  linkAnswers : List Bool
  pending : List Instr
deriving DecidableEq, Repr

/-- Why a step stops with a fault. There is no reason: the chapters give every command an effect in every
state, so no meaning ends in a fault. -/
inductive Fault where
deriving DecidableEq, Repr

/-- Why a step is refused. -/
inductive Refusal where
  /-- Raised by `exec` for a command that has no meaning yet. Safe: the model stops. No arm raises it. -/
  | notModelled (mnemonic : String)
deriving DecidableEq, Repr

/-! ### The state after hard reset (R182) -/

/-- The time base after hard reset (1.1, R12, R7). -/
def Clock.reset : Clock :=
  { now := ⟨0, 0⟩, valid := false, block := 0, rho := 0, slew := none, sync := .unsynced,
    holdover := 0, lastDev := 0, edge := none, markReady := false }

/-- The empty calendar and shift tables (1.10). -/
def Calendar.empty : Calendar :=
  { week := [], epochWeekday := 0, holidays := [], exceptions := [], shifts := [], crews := [] }

/-- The mode word with all flags clear (R6). -/
def ModeWord.clear : ModeWord := { rehearsal := false, bellsOff := false, syncEnable := false }

/-- The worker table with W unfixed (R43). -/
def WorkerTable.reset : WorkerTable := { capacity := none, workers := [], index := [] }

/-- An UNUSED reader descriptor (R51). -/
def ReaderDesc.unused : ReaderDesc := { kind := .unused, level := 0 }

/-- A reader line after hard reset (R50). -/
def Line.reset : Line :=
  { online := false, timer := none, bad := 0, tamper := false, holdOff := none,
    desc := ReaderDesc.unused, waiting := [], answer := none }

/-- A zone after hard reset (R65, R70). -/
def Zone.reset : Zone :=
  { present := false, type := .floor, capacity := 0, ceiling := 0, occupancy := 0, reserved := 0 }

/-- The default column of the door table (R85). -/
def DoorEntry.default : DoorEntry :=
  { fromZone := 0, toZone := 0, mode := .card, apb := .off, clocking := false, release := 5,
    heldLimit := 30, polarity := .nc, rexEnable := true, supervised := false, profiles := 0 }

/-- A door after hard reset (5.1) whose contact circuit is closed. -/
def Door.reset : Door :=
  { entry := DoorEntry.default, state := .inactive, grant := none, release := none, held := none,
    cmd := .locked, settle := none, disagree := 0, found := none, mark := false,
    faultTime := ⟨0, 0⟩, circuit := true, contact := .closed, readback := .locked, alarmStart := none, openStart := none }

/-- The empty pay tables and night window (R119, R120). -/
def PayTables.empty : PayTables := { rules := [], grades := [], nStart := 0, nEnd := 0 }

/-- The bell state after hard reset (R151). -/
def Bells.reset : Bells :=
  { plan := [], passed := 0, due := [], circuits := Vector.replicate 8 .idle }

/-- The fire unit after hard reset (R152, R156). -/
def FireUnit.reset : FireUnit :=
  { state := .clear, captured := none, musterPending := false, evacMask := 255, deferred := none }

/-- The memory link controller after hard reset (R177). -/
def Link.reset : Link :=
  { setup := none, workPos := 0, journalPos := 0, fill := 0, queue := [], reserved := 0, holdGap := 0,
    lost := 0, seq := 0, contWritten := false, request := none, output := none, ret := none, muster := none,
    pollTimer := none, draws := 0 }

/-- The registers after hard reset (11.1). -/
def Regs.reset : Regs :=
  { run := .clearing, configValid := false, runMark := false, setupAddr := 0, events := 0,
    eventEn := 0, eventLine := 0 }

/-- The machine right after reset: CLEARING, every block at its reset values, no command waiting. The
contact circuits are closed, FIRE_IN is deasserted and the shared RAM lists nothing
(DESIGN CHOICE, notes/assumptions/1.md and 3.md). -/
def State.reset : State :=
  { clock := Clock.reset, mode := ModeWord.clear, cal := Calendar.empty, table := WorkerTable.reset,
    lines := Vector.replicate 24 Line.reset, zones := Vector.replicate 15 Zone.reset,
    doors := Vector.replicate 12 Door.reset, pay := PayTables.empty, bells := Bells.reset,
    fire := FireUnit.reset, link := Link.reset, regs := Regs.reset, ram := [], linkAnswers := [],
    pending := [] }

end Sys2Proof.Machine
end

