-- ==== Sys2Proof/Machine/Memory.lean ====
section
/-! DEFINITION. The shared RAM as the memory link reaches it: bytes at 32-bit addresses, kept as the
canonical list of Machine/State.lean. Addresses past the last wrap to 0 (notes/assumptions/3.md). -/

namespace Sys2Proof.Machine

/-- The byte at an address; an unlisted one reads as `Config.unlistedByte`. -/
def readCell : Memory → Nat → Byte
  | [], _ => Config.unlistedByte
  | (k, v) :: rest, a => if a = k then v else if a < k then Config.unlistedByte else readCell rest a

/-- Stores a byte at an address, keeping the canonical form. -/
def writeCell : Memory → Nat → Byte → Memory
  | [], a, v => if v = Config.unlistedByte then [] else [(a, v)]
  | (k, w) :: rest, a, v =>
    if a = k then (if v = Config.unlistedByte then rest else (a, v) :: rest)
    else if a < k then (if v = Config.unlistedByte then (k, w) :: rest else (a, v) :: (k, w) :: rest)
    else (k, w) :: writeCell rest a v

/-- The address `off` bytes after `base`, in 32 bits. -/
def addrAt (base : Word) (off : Nat) : Nat := (base.toNat + off) % 4294967296

/-- The `n` bytes from `off` bytes after `base` on. -/
def readBytes (m : Memory) (base : Word) (off n : Nat) : List Byte :=
  (List.range n).map fun i => readCell m (addrAt base (off + i))

/-- The number in the `n` bytes from `off` bytes after `base` on, the low byte first. -/
def readLe (m : Memory) (base : Word) (off n : Nat) : Nat := ofLe (readBytes m base off n)

/-- Stores bytes from `off` bytes after `base` on. -/
def writeBytes (m : Memory) (base : Word) : Nat → List Byte → Memory
  | _, [] => m
  | off, b :: rest => writeBytes (writeCell m (addrAt base off) b) base (off + 1) rest

/-- The shared RAM after the host's own writes, in the host's order. -/
def hostWrite (m : Memory) : HostWrites → Memory
  | [] => m
  | (a, b) :: rest => hostWrite (writeCell m a.toNat b) rest

/-- The state with the host's writes made in the shared RAM. -/
def State.hostWrites (s : State) (w : HostWrites) : State := { s with ram := hostWrite s.ram w }

end Sys2Proof.Machine
end

