-- ==== Sys2Proof/Machine/Codes.lean ====
section
/-! DEFINITION. The codes of R178 (10.5, Codes; 11.1) for every enumerated field, and the reading of a
coded field. -/

namespace Sys2Proof.Machine

/-- Run state codes, as in CTL. -/
def RunState.code : RunState → Nat
  | .clearing => 0 | .halted => 1 | .loading => 2 | .running => 3 | .isolated => 4

/-- Sync state codes, as in CTL. -/
def SyncState.code : SyncState → Nat
  | .unsynced => 0 | .locked => 1 | .holdover => 2

/-- Fire state codes. -/
def FireState.code : FireState → Nat
  | .clear => 0 | .alarm => 1 | .hold => 2

/-- Door state codes. -/
def DoorState.code : DoorState → Nat
  | .inactive => 0 | .secure => 1 | .released => 2 | .open_ => 3 | .held => 4 | .forced => 5
  | .free => 6 | .egress => 7 | .fault => 8

/-- Door mode codes. -/
def DoorMode.code : DoorMode → Nat
  | .card => 0 | .free => 1 | .locked => 2

/-- The door mode of a code, if it is defined. -/
def DoorMode.ofCode : Nat → Option DoorMode
  | 0 => some .card | 1 => some .free | 2 => some .locked | _ => none

/-- The anti-passback setting of a code; an undefined value is read as HARD (R85). -/
def Apb.ofCode : Nat → Apb
  | 0 => .off | 1 => .soft | _ => .hard

/-- The polarity of a code; an undefined value is read as NC (R85). -/
def Polarity.ofCode : Nat → Polarity
  | 1 => .no | _ => .nc

/-- Contact state codes. -/
def Contact.code : Contact → Nat
  | .closed => 0 | .open_ => 1

/-- The contact state of a code, if it is defined. -/
def Contact.ofCode : Nat → Option Contact
  | 0 => some .closed | 1 => some .open_ | _ => none

/-- Relay command and readback codes. -/
def Relay.code : Relay → Nat
  | .locked => 0 | .released => 1

/-- DOOR_FAULT kind codes. -/
def FaultKind.code : FaultKind → Nat
  | .settle => 0 | .drift => 1

/-- DOOR_RESTORED alarm codes. -/
def Alarm.code : Alarm → Nat
  | .forced => 0 | .held => 1 | .fault => 2

/-- Zone type codes. -/
def ZoneType.code : ZoneType → Nat
  | .floor => 0 | .muster => 1 | .closed => 2

/-- The zone type of a code; an undefined value is read as CLOSED (R65). -/
def ZoneType.ofCode : Nat → ZoneType
  | 0 => .floor | 1 => .muster | _ => .closed

/-- Reader kind codes. -/
def ReaderKind.code : ReaderKind → Nat
  | .unused => 0 | .doorEntry _ => 1 | .doorExit _ => 2 | .clockOnly _ => 3 | .musterPoint _ => 4

/-- The CLOCK_ONLY role of a code, if it is defined. -/
def Role.ofCode : Nat → Option Role
  | 0 => some .in_ | 1 => some .out | 2 => some .toggle | _ => none

/-- The rounding mode of a code; an undefined value is read as FAVOUR_PLANT (R119). -/
def Rounding.ofCode : Nat → Rounding
  | 1 => .nearest | _ => .favourPlant

/-- The bell pattern of a code, if it is defined. -/
def Pattern.ofCode : Nat → Option Pattern
  | 0 => some .steady | 1 => some .pulsed | 2 => some .triple | _ => none

/-- CLOCK_STEP cause codes. -/
def StepCause.code : StepCause → Nat
  | .sync => 0 | .setTime => 1 | .load => 2

/-- AUTO_CLOSE cause codes. -/
def CloseCause.code : CloseCause → Nat
  | .deadline => 0 | .withdraw => 1

/-- Lapse cause codes. -/
def LapseCause.code : LapseCause → Nat
  | .expiry => 0 | .fire => 1 | .halt => 2 | .mode => 3 | .fault => 4

/-- Punch kinds take the codes of their records. -/
def PunchKind.code : PunchKind → Nat
  | .punchIn => 1 | .punchOut => 2 | .reentry => 3 | .strayOut => 4 | .passage => 5

/-- Refusal reasons, numbered 1 to 16. -/
def Reason.code : Reason → Nat
  | .badSite => 1 | .unknownBadge => 2 | .issueMismatch => 3 | .suspended => 4 | .doorLocked => 5
  | .doorFault => 6 | .zoneAbsent => 7 | .zoneClosed => 8 | .noProfile => 9 | .profile => 10
  | .clearance => 11 | .wrongZone => 12 | .zoneFull => 13 | .notScheduled => 14 | .alreadyOn => 15
  | .notOn => 16

/-- Lamp codes. -/
def Lamp.code : Lamp → Nat
  | .green => 1 | .red => 2 | .amber => 3

/-- Frame kind bytes. -/
def FrameKind.code : FrameKind → Nat
  | .present => 0x31 | .hello => 0x32 | .tamper => 0x33

/-- The length of a reader's frame, check byte included (R45). -/
def FrameKind.length : FrameKind → Nat
  | .present => 9 | .hello => 2 | .tamper => 2

/-- The frame kind of a kind byte, if it is one a reader sends (R45). -/
def FrameKind.ofCode (n : Nat) : Option FrameKind :=
  if n = 0x31 then some .present else if n = 0x32 then some .hello
  else if n = 0x33 then some .tamper else none

/-- Status codes. -/
def Status.code : Status → Nat
  | .done => 0x00 | .partial_ => 0x01 | .haltedPartial => 0x02 | .kindUnknown => 0x10
  | .range => 0x11 | .noOutput => 0x12 | .syncOwns => 0x20 | .noRoom => 0x21 | .notFound => 0x22
  | .slotInUse => 0x30 | .badgeInUse => 0x31 | .slotEmpty => 0x32 | .notSettled => 0x33
  | .grantPending => 0x34 | .zoneAbsent => 0x40 | .zoneFull => 0x41 | .fireActive => 0x42
  | .notRehearsal => 0x43 | .doorLocked => 0x50 | .doorFault => 0x51 | .stillFaulted => 0x52

/-- Load result codes. -/
def LoadCode.code : LoadCode → Nat
  | .ok => 0 | .inProgress => 1 | .align => 2 | .length => 3 | .order => 4 | .duplicate => 5
  | .zoneRef => 6 | .doorRef => 7 | .shiftRef => 8 | .quantum => 9 | .shiftLength => 10
  | .capacityChange => 11 | .roster => 12 | .noTime => 13 | .link => 14

/-- Table identifiers. -/
def TableId.code : TableId → Nat
  | .setup => 0 | .dayType => 1 | .week => 2 | .exceptions => 3 | .shift => 4 | .rota => 5
  | .payRule => 6 | .grade => 7 | .zone => 8 | .door => 9 | .reader => 10 | .bellPlan => 11
  | .roster => 12

/-- The bit of an event cause in EVENTS, EVENT_EN and EVENT_LINE (11.1). -/
def Event.bit : Event → Nat
  | .loadDone => 0 | .loadFailed => 1 | .workDone => 2 | .journal => 3 | .holding => 4
  | .holdFull => 5 | .linkError => 6 | .doorAlarm => 7 | .fireOn => 8 | .fireOff => 9
  | .syncChange => 10 | .clockStep => 11

/-- A signed count as a 16-bit field in two's complement (R178). -/
def signed16 (n : Int) : Nat := (BitVec.ofInt 16 n).toNat

end Sys2Proof.Machine
end

