-- ==== Sys2Proof/Machine/Flags.lean ====
section
/-! DEFINITION. The event flags, the two interrupt lines (R183, R184), and what a read of each register
shows (11.1, R180). -/

namespace Sys2Proof.Machine

/-- The mask of one cause. -/
def Event.mask (e : Event) : BitVec 12 := 1#12 <<< e.bit

/-- The flag of a cause. -/
def flagSet (e : Event) (s : State) : Bool := s.regs.events.getLsbD e.bit

/-- Raises a cause (R183): its flag is set whether or not the cause is enabled. The flags stay 0
through CLEARING. -/
def raise (e : Event) (s : State) : State :=
  if s.regs.run = .clearing then s
  else { s with regs := { s.regs with events := s.regs.events ||| e.mask } }

/-- IRQ_A (R184). -/
def irqA (s : State) : Bool := s.regs.events &&& s.regs.eventEn &&& ~~~s.regs.eventLine != 0

/-- IRQ_B (R184). -/
def irqB (s : State) : Bool := s.regs.events &&& s.regs.eventEn &&& s.regs.eventLine != 0

/-- Fire is active in ALARM and HOLD (9.1). -/
def fireActive (s : State) : Bool := s.fire.state != .clear

/-- RUNNING or ISOLATED, the run states in which the gates run. -/
def gatesRun (s : State) : Bool := s.regs.run == .running || s.regs.run == .isolated

/-- What a read of CTL shows (11.1). -/
def ctlRead (s : State) : Word :=
  BitVec.ofNat 32 (s.regs.run.code + 16 * bit s.regs.configValid + 32 * bit s.clock.valid +
    64 * s.clock.sync.code + 256 * bit (s.fire.state == .alarm) + 512 * bit (fireActive s))

/-- What a 32-bit read at a byte offset of the register window shows (11.1, R180). -/
def readRegister (s : State) (offset : Nat) : Word :=
  if offset = 0x00 then ctlRead s
  else if offset = 0x04 then s.regs.setupAddr
  else if offset = 0x08 then s.regs.events.zeroExtend 32
  else if offset = 0x0C then s.regs.eventEn.zeroExtend 32
  else if offset = 0x10 then s.regs.eventLine.zeroExtend 32
  else if offset = 0x14 then BitVec.ofNat 32 (if s.clock.valid then s.clock.now.sec else 0)
  else 0

end Sys2Proof.Machine
end

