-- ==== Sys2Proof/Machine/Records.lean ====
section
/-! DEFINITION. The layouts of R178 that the part writes: journal entries, statement records, status
snapshots, the muster list. -/

namespace Sys2Proof.Machine

/-- Bytes made up to a length with zeros: "Bytes a layout does not assign are written 0" (R178). -/
def padTo (n : Nat) (b : List Byte) : List Byte := b ++ List.replicate (n - b.length) 0

/-- A time field of four bytes and a beat byte. -/
def stampBytes (t : Stamp) : List Byte := le32 t.sec ++ [byteOf t.beat]

/-- A door field; 0xFF means absent. -/
def doorByte : Option DoorNo → Byte
  | some d => byteOf d.val
  | none => 0xFF

/-! ### Journal entries -/

/-- The kind code of a record. -/
def RecordBody.kind : RecordBody → Nat
  | .punchIn .. => 0x01 | .punchOut .. => 0x02 | .reentry _ => 0x03 | .strayOut _ => 0x04
  | .passage _ => 0x05 | .lapsed .. => 0x06 | .refused .. => 0x07 | .autoClose .. => 0x08
  | .mustered .. => 0x09 | .holdGap .. => 0x10 | .clockStep .. => 0x11 | .syncState .. => 0x12
  | .readerOffline .. => 0x18 | .readerOnline .. => 0x19 | .readerTamper .. => 0x1A
  | .doorForced .. => 0x20 | .doorHeld .. => 0x21 | .doorRestored .. => 0x22 | .doorFault .. => 0x23
  | .bellSkipped .. => 0x28 | .fireOn .. => 0x30 | .fireOff _ => 0x31 | .fireAck .. => 0x32
  | .musterWritten .. => 0x33

/-- The journal entries a record takes: two for PUNCH_IN, PUNCH_OUT and AUTO_CLOSE. -/
def RecordBody.entries : RecordBody → Nat
  | .punchIn .. | .punchOut .. | .autoClose .. => 2
  | .reentry _ | .strayOut _ | .passage _ | .lapsed .. | .refused .. | .mustered .. | .holdGap ..
  | .clockStep .. | .syncState .. | .readerOffline .. | .readerOnline .. | .readerTamper ..
  | .doorForced .. | .doorHeld .. | .doorRestored .. | .doorFault .. | .bellSkipped .. | .fireOn ..
  | .fireOff _ | .fireAck .. | .musterWritten .. => 1

/-- The flags of a record, the first listed in bit 0. -/
def RecordBody.flags : RecordBody → List Bool
  | .punchIn p _ _ _ late newRun => [p.inward, p.apbSoft, late, newRun]
  | .punchOut p _ _ c => [p.inward, p.apbSoft, c.late, c.leftEarly, c.tookBreak, c.saturated]
  | .reentry p | .strayOut p | .passage p => [p.inward, p.apbSoft]
  | .lapsed _ _ _ _ inward _ _ _ => [inward]
  | .autoClose _ _ _ _ _ _ c => [c.missedOut, c.late, c.tookBreak, c.saturated]
  | .mustered _ _ _ _ _ on again => [on, again]
  | .fireOn _ _ again => [again]
  | .fireAck _ _ unwritten => [unwritten]
  | .musterWritten _ _ _ truncated noArea => [truncated, noArea]
  | .refused .. | .holdGap .. | .clockStep .. | .syncState .. | .readerOffline .. | .readerOnline ..
  | .readerTamper .. | .doorForced .. | .doorHeld .. | .doorRestored .. | .doorFault ..
  | .bellSkipped .. | .fireOff _ => []

/-- The slot a record carries, if it carries one. -/
def RecordBody.slot : RecordBody → Option Nat
  | .punchIn p .. => some p.slot
  | .punchOut p .. => some p.slot
  | .reentry p | .strayOut p | .passage p => some p.slot
  | .lapsed slot .. => some slot
  | .refused slot .. => slot
  | .autoClose slot .. => some slot
  | .mustered slot .. => some slot
  | .holdGap .. | .clockStep .. | .syncState .. | .readerOffline .. | .readerOnline ..
  | .readerTamper .. | .doorForced .. | .doorHeld .. | .doorRestored .. | .doorFault ..
  | .bellSkipped .. | .fireOn .. | .fireOff _ | .fireAck .. | .musterWritten .. => none

/-- The bytes P of R178. -/
def passageBytes (p : PassageInfo) : List Byte :=
  le32 p.badge ++ [byteOf p.issue, doorByte p.door, byteOf p.line.val, byteOf p.oldLocation.val,
    byteOf p.newLocation.val] ++ stampBytes p.time

/-- The day field of a captured shift; a free value where it is UNSCHEDULED. -/
def capturedDay (draw : Nat) : Option ShiftRun → List Byte
  | some c => le16 c.day
  | none => le16 (Config.freeWord draw 0).toNat

/-- The shift field of a captured shift, 0 for UNSCHEDULED. -/
def capturedShift : Option ShiftRun → Byte
  | some c => byteOf c.shift
  | none => 0

/-- The Ts and Te fields of a captured shift; free values where it is UNSCHEDULED. -/
def capturedTimes (draw : Nat) : Option ShiftRun → List Byte
  | some c => le32 c.ts ++ le32 c.te
  | none => le32 (Config.freeWord draw 1).toNat ++ le32 (Config.freeWord draw 2).toNat

/-- The effective times, the four additions, the break and the grade of a closing. -/
def closingBytes (c : ClosingResult) : List Byte :=
  le32 c.eIn ++ le32 c.eOut ++ le16 c.reg ++ le16 c.night ++ le16 c.ot ++ le16 c.hol ++
    [byteOf c.breakMin, byteOf c.grade]

/-- The payload of a record; `draw` numbers its free values. -/
def RecordBody.payload (draw : Nat) : RecordBody → List Byte
  | .punchIn p captured rule deadline _ _ =>
    passageBytes p ++ capturedDay draw captured ++ [capturedShift captured, byteOf rule] ++
      capturedTimes draw captured ++ le32 deadline
  | .punchOut p tIn captured c =>
    passageBytes p ++ le32 tIn ++ capturedDay draw captured ++ [capturedShift captured] ++
      capturedTimes draw captured ++ closingBytes c
  | .reentry p | .strayOut p | .passage p => passageBytes p
  | .lapsed _ badge door line _ kind cause time =>
    le32 badge ++ [byteOf door.val, byteOf line.val, byteOf kind.code, byteOf cause.code] ++
      stampBytes time
  | .refused _ badge issue line door reason =>
    le32 badge ++ [byteOf issue, byteOf line.val, doorByte door, byteOf reason.code]
  | .autoClose _ badge issue cause location i c =>
    le32 badge ++ [byteOf issue, byteOf cause.code, byteOf location.val, byteOf i.rule] ++
      le32 i.tIn ++ capturedDay draw i.captured ++ [capturedShift i.captured] ++
      capturedTimes draw i.captured ++ le32 i.deadline ++ closingBytes c
  | .mustered _ badge line zone location _ _ =>
    le32 badge ++ [byteOf line.val, byteOf zone.val, byteOf location.val]
  | .holdGap gap lost => le16 gap ++ le16 lost
  | .clockStep (some old) cause => stampBytes old ++ [byteOf cause.code]
  | .clockStep none cause =>
    le32 Config.allOnes ++ [byteOf (Config.freeWord draw 3).toNat, byteOf cause.code]
  | .syncState old new rho dev =>
    [byteOf old.code, byteOf new.code] ++ le16 (signed16 rho) ++ le16 (signed16 dev)
  | .readerOffline line bad => [byteOf line.val] ++ le16 bad
  | .readerOnline line kind => [byteOf line.val, byteOf kind.code]
  | .readerTamper line opened => [byteOf line.val, byteOf (bit opened)]
  | .doorForced door mode => [byteOf door.val, byteOf mode.code]
  | .doorHeld door limit start => [byteOf door.val, byteOf limit] ++ stampBytes start
  | .doorRestored door alarm start => [byteOf door.val, byteOf alarm.code] ++ stampBytes start
  | .doorFault door kind cmd readback state =>
    [byteOf door.val, byteOf kind.code, byteOf cmd.code, byteOf readback.code, byteOf state.code]
  | .bellSkipped old count firstDay firstEntry lastDay lastEntry =>
    le32 old ++ le16 count ++ le16 firstDay ++ [byteOf firstEntry] ++ le16 lastDay ++
      [byteOf lastEntry]
  | .fireOn run lapses _ => [byteOf run.code, byteOf lapses]
  | .fireOff captured => stampBytes captured
  | .fireAck captured cleared _ => stampBytes captured ++ le16 cleared
  | .musterWritten captured entries total _ _ => stampBytes captured ++ le16 entries ++ le16 total

/-- Bytes 1 to 31 of the first journal entry of a record. -/
def Record.firstEntry (r : Record) : List Byte :=
  padTo 31 ([byteOf r.body.kind] ++ le16 r.seq ++ stampBytes r.time ++
    [byteOf (packFlags r.body.flags)] ++ le16 (r.body.slot.getD 0xFFFF) ++
    (r.body.payload r.draw).take 20)

/-- Bytes 1 to 31 of the continuation entry of a record. -/
def Record.contEntry (r : Record) : List Byte :=
  padTo 31 ([0xFF] ++ le16 r.seq ++ (r.body.payload r.draw).drop 20)

/-- Bytes 1 to 31 of entry `k` of a record, 0 the first. -/
def Record.entryBytes (r : Record) (k : Nat) : List Byte :=
  if k = 0 then r.firstEntry else r.contEntry

/-! ### Output records -/

/-- The total of a statement's amounts (R131). -/
def StatementRec.total (r : StatementRec) : Nat := r.regCents + r.nightCents + r.otCents + r.holCents

/-- A statement record, 48 bytes. -/
def StatementRec.bytes (r : StatementRec) : List Byte :=
  padTo 48 (le16 r.slot ++
    [byteOf r.issue, byteOf (packFlags [r.saturated, r.on, r.latePending, r.reset])] ++
    le32 r.badge ++ le16 r.reg ++ le16 r.night ++ le16 r.ot ++ le16 r.hol ++
    le32 r.regCents ++ le32 r.nightCents ++ le32 r.otCents ++ le32 r.holCents ++ le32 r.total ++
    [byteOf r.grade, byteOf r.rule, byteOf r.location.val, byteOf r.time.beat] ++ le32 r.time.sec)

/-- The bytes of the held output record. -/
def HeldOutput.bytes : HeldOutput → List Byte
  | .statement r => r.bytes
  | .snapshot b => b

/-- The size of a held output record's place (R168). -/
def HeldOutput.size : HeldOutput → Nat
  | .statement _ => 48
  | .snapshot _ => 212

/-- A door's two bytes of the status snapshot. -/
def Door.snapshot (d : Door) : List Byte :=
  [byteOf d.state.code, byteOf (d.entry.mode.code + 4 * d.contact.code + 8 * bit d.mark)]

/-- A zone's four bytes of the status snapshot. -/
def Zone.snapshot (z : Zone) : List Byte :=
  le16 z.occupancy ++ [byteOf z.reserved, byteOf (z.type.code + 4 * bit z.present)]

/-- A reader line's four bytes of the status snapshot. -/
def Line.snapshot (l : Line) : List Byte :=
  le16 l.bad ++ [byteOf (bit l.online + 2 * bit l.tamper), byteOf l.desc.kind.code]

/-- Q, the places of the holding queue (R24). -/
def queueCap (s : State) : Nat :=
  match s.table.capacity with
  | none => Config.unfixedPlaces
  | some w => Config.recordUnits - w

/-- The status snapshot, 212 bytes (R169, R178). -/
def statusSnapshot (s : State) : List Byte :=
  padTo 212 (stampBytes s.clock.now ++
    [byteOf s.regs.run.code, byteOf s.clock.sync.code, byteOf s.fire.state.code] ++
    le16 (signed16 s.clock.rho) ++ le16 (signed16 s.clock.lastDev) ++
    le16 (s.table.capacity.getD 0) ++ le16 (bit s.clock.valid) ++
    le16 s.link.queue.length ++ le16 s.link.reserved ++ le16 (queueCap s) ++ le16 s.link.holdGap ++
    le16 s.link.lost ++ le16 s.link.workPos ++ le16 s.link.journalPos ++
    s.doors.toList.flatMap Door.snapshot ++ s.zones.toList.flatMap Zone.snapshot ++
    s.lines.toList.flatMap Line.snapshot)

/-- A muster entry, 8 bytes. -/
def MusterEntry.bytes (e : MusterEntry) : List Byte :=
  le16 e.slot ++ [byteOf e.zone.val, byteOf (packFlags [e.on, e.flagged])] ++ le32 e.badge

/-- The total count exceeds the area's capacity (R158). -/
def MusterWrite.truncated (m : MusterWrite) : Bool := m.capacity < m.entries.length

/-- The number of entries a muster write writes (R158). -/
def MusterWrite.count (m : MusterWrite) : Nat := min m.entries.length m.capacity

/-- The muster header, 16 bytes. -/
def MusterWrite.header (m : MusterWrite) : List Byte :=
  stampBytes m.captured ++ [byteOf (bit m.truncated)] ++ le16 m.count ++ le16 m.entries.length ++
    [0, 0] ++ le32 m.writeTime.sec

/-! ### Reader frames -/

/-- One place of the check register's shift (R45): the polynomial 0x07 is combined in when a one is
shifted out of the top. -/
def crcShift (r : Byte) : Byte := if r.getLsbD 7 then (r <<< 1) ^^^ 0x07 else r <<< 1

/-- One byte taken into the check register. -/
def crcByte (r b : Byte) : Byte :=
  crcShift (crcShift (crcShift (crcShift (crcShift (crcShift (crcShift (crcShift (r ^^^ b))))))))

/-- The check byte of the bytes before it (R45). -/
def checkByte (b : List Byte) : Byte := b.foldl crcByte 0

/-- The ANSWER frame of an answer (R47, R178). -/
def Answer.frame (a : Answer) : List Byte :=
  let b := [0x41, byteOf a.lamp.code, byteOf a.duration]
  b ++ [checkByte b]

end Sys2Proof.Machine
end

