-- ==== Sys2Proof/Machine/Ops.lean ====
section
/-! DEFINITION. The named operations the commands share: updates of one door, line, zone or circuit;
accesses on the memory link (R175); the journal, the holding queue and the placing of records (R170 to
R174); the return of a request (R167). -/

namespace Sys2Proof.Machine

/-! ### Updates of one unit -/

/-- Applies `f` to one door. -/
def modDoor (d : DoorNo) (f : Door → Door) (s : State) : State :=
  { s with doors := s.doors.set d.val (f s.doors[d]) }

/-- Applies `f` to one reader line. -/
def modLine (l : LineNo) (f : Line → Line) (s : State) : State :=
  { s with lines := s.lines.set l.val (f s.lines[l]) }

/-- Applies `f` to one bell circuit. -/
def modCircuit (c : CircuitNo) (f : Circuit → Circuit) (s : State) : State :=
  { s with bells := { s.bells with circuits := s.bells.circuits.set c.val (f s.bells.circuits[c]) } }

/-- The place of zone 1 to 15 among the fifteen entries; none for zone 0, which has no entry (R66). -/
def zoneIndex (z : ZoneNo) : Option (Fin 15) :=
  if h : z.val = 0 then none else some ⟨z.val - 1, by omega⟩

/-- The entry and counts of a zone 1 to 15 (R65). -/
def zoneAt (s : State) (z : ZoneNo) : Option Zone :=
  (zoneIndex z).map fun i => s.zones[i]

/-- Applies `f` to a zone 1 to 15; zone 0 has nothing to change (R66). -/
def modZone (z : ZoneNo) (f : Zone → Zone) (s : State) : State :=
  match zoneIndex z with
  | none => s
  | some i => { s with zones := s.zones.set i.val (f s.zones[i]) }

/-- The doors in ascending order. -/
def allDoors : List DoorNo := [0, 1, 2, 3, 4, 5, 6, 7, 8, 9, 10, 11]

/-- Applies an operation to every door, in ascending door order. -/
def forDoors (f : DoorNo → State → State) (s : State) : State := allDoors.foldl (fun s d => f d s) s

/-! ### The memory link -/

/-- An error response to an access (R175, R183): the LINK_ERROR event, and RUNNING becomes ISOLATED. -/
def linkFail (s : State) : State :=
  let s1 := raise .linkError s
  if s1.regs.run = .running then { s1 with regs := { s1.regs with run := .isolated } } else s1

/-- One access on the memory link: true when it is answered well, else with the effects of the error
response. -/
def linkAccess (s : State) : Bool × State :=
  match s.linkAnswers with
  | [] => (true, s)
  | false :: rest => (true, { s with linkAnswers := rest })
  | true :: rest => (false, linkFail { s with linkAnswers := rest })

/-- One write access of bytes in shared RAM; an access that meets an error writes nothing
(notes/assumptions/8.md). -/
def linkWrite (base : Word) (off : Nat) (b : List Byte) (s : State) : Bool × State :=
  match linkAccess s with
  | (false, s1) => (false, s1)
  | (true, s1) => (true, { s1 with ram := writeBytes s1.ram base off b })

/-! ### The return of a request (R167) -/

/-- A stated value, or the free value of a draw. -/
def statedOr (v : Option Nat) (draw field : Nat) : Nat :=
  match v with
  | some n => n
  | none => (Config.freeWord draw field).toNat

/-- The work list position after one slot (R167). -/
def nextWorkPos (su : Setup) (pos : Nat) : Nat := (pos + 1) % 2 ^ su.workLog

/-- The bytes at offsets 3 and 8 to 11 of a returned slot: status, then count and resume index. -/
def Return.bytes (r : Return) : List Byte × List Byte :=
  ([byteOf r.status.code], le16 (statedOr r.count r.draw 0) ++ le16 (statedOr r.resume r.draw 1))

/-- Writes the pending return, if any (R167): status, count and resume index in one access, then the
owner byte 0xA5 in another; then the position advances and WORK_DONE is raised if NOTIFY is set. A
return that meets an error stays pending. -/
def settleReturn (s : State) : State :=
  match s.link.ret, s.link.setup with
  | some r, some su =>
    let off := 64 * s.link.workPos
    match linkWrite su.workList (off + 3) r.bytes.1 s with
    | (false, s1) => s1
    | (true, s1) =>
      let s2 := { s1 with ram := writeBytes s1.ram su.workList (off + 8) r.bytes.2 }
      match linkWrite su.workList off [0xA5] s2 with
      | (false, s3) => s3
      | (true, s3) =>
        let s4 := { s3 with
          link := { s3.link with ret := none, workPos := nextWorkPos su s3.link.workPos } }
        if r.notify then raise .workDone s4 else s4
  | _, _ => s

/-- The request in progress ends: its return becomes pending. -/
def pendReturn (status : Status) (count resume : Option Nat) (s : State) : State :=
  match s.link.request with
  | none => s
  | some q =>
    { s with link := { s.link with
        request := none
        ret := some ⟨status, count, resume, q.notify, s.link.draws⟩
        draws := s.link.draws + 1 } }

/-- The request in progress ends with a status (R167, R175): its slot is returned at once in RUNNING,
else the return stays pending. -/
def endRequest (status : Status) (count resume : Option Nat) (s : State) : State :=
  let s1 := pendReturn status count resume s
  if s1.regs.run = .running then settleReturn s1 else s1

/-! ### The journal (R172) -/

/-- The free unreserved places of the holding queue, Q − U − V (R56, R170). -/
def freePlaces (s : State) : Nat := queueCap s - (s.link.queue.length + s.link.reserved)

/-- Room for a record that waits for room (R56, R111): one place, or two while the hold gap count is
nonzero. -/
def hasRoom (s : State) : Bool := (if s.link.holdGap = 0 then 1 else 2) ≤ freePlaces s

/-- How the write of the head record ends. -/
inductive WriteEnd where
  | wrote | blocked | failed
deriving DecidableEq, Repr

/-- The byte offset in the journal of the entry `k` places after the position. -/
def journalOffset (su : Setup) (pos k : Nat) : Nat := 32 * ((pos + k) % 2 ^ su.journalLog)

/-- Step 1 of R172: reads the owner byte of every entry listed; each must be EMPTY. -/
def testEntries (su : Setup) : List Nat → State → WriteEnd × State
  | [], s => (.wrote, s)
  | k :: rest, s =>
    match linkAccess s with
    | (false, s1) => (.failed, s1)
    | (true, s1) =>
      match testEntries su rest s1 with
      | (.wrote, s2) =>
        if readCell s1.ram (addrAt su.journal (journalOffset su s1.link.journalPos k)) = 0 then
          (.wrote, s2)
        else (.blocked, s2)
      | e => e

/-- Step 2 of R172: writes the entries listed, each its bytes 1 to 31 and then its owner byte 0xF1. -/
def writeEntries (su : Setup) (r : Record) : List Nat → State → WriteEnd × State
  | [], s => (.wrote, s)
  | k :: rest, s =>
    let off := journalOffset su s.link.journalPos k
    match linkWrite su.journal (off + 1) (r.entryBytes k) s with
    | (false, s1) => (.failed, s1)
    | (true, s1) =>
      match linkWrite su.journal off [0xF1] s1 with
      | (false, s2) => (.failed, s2)
      | (true, s2) =>
        writeEntries su r rest { s2 with link := { s2.link with contWritten := true } }

/-- Step 3 of R172: the head record leaves the queue, the position advances, and the fill count may
reach the threshold and raise JOURNAL. -/
def leaveQueue (su : Setup) (n : Nat) (s : State) : State :=
  let fill := satAdd (2 ^ su.journalLog) s.link.fill n
  let s1 := { s with link := { s.link with
    queue := s.link.queue.tail
    contWritten := false
    journalPos := (s.link.journalPos + n) % 2 ^ su.journalLog
    fill := fill } }
  if s.link.fill < su.threshold ∧ su.threshold ≤ fill then raise .journal s1 else s1

/-- The write of the head record of the holding queue (R172). A continuation entry that the part has
already filled for this record is not tested again (R175). -/
def tryWriteHead (s : State) : WriteEnd × State :=
  match s.link.queue, s.link.setup with
  | r :: _, some su =>
    let two := r.body.entries == 2
    match testEntries su (if two && !s.link.contWritten then [0, 1] else [0]) s with
    | (.wrote, s1) =>
      match writeEntries su r (if two then [1, 0] else [0]) s1 with
      | (.wrote, s2) => (.wrote, leaveQueue su r.body.entries s2)
      | e => e
    | e => e
  | _, _ => (.blocked, s)

/-- Writes head records one after another, at most `n`, until the queue is empty or the head is held
up. -/
def writeHeads : Nat → State → State
  | 0, s => s
  | n + 1, s =>
    if s.link.queue.isEmpty then s
    else match tryWriteHead s with
      | (.wrote, s1) => writeHeads n s1
      | (_, s1) => s1

/-! ### Placing records (R170, R171, R174) -/

/-- Places a record at the tail of the queue with the next sequence number, in a reserved place or a
free one (R170). HOLD_FULL is raised when the free unreserved places fall to 0. -/
def placeRecord (reserved : Bool) (time : Stamp) (b : RecordBody) (s : State) : State :=
  let s1 := { s with link := { s.link with
    queue := s.link.queue ++ [⟨s.link.seq, time, b, s.link.draws⟩]
    seq := (s.link.seq + 1) % 65536
    draws := s.link.draws + 1
    reserved := if reserved then s.link.reserved - 1 else s.link.reserved } }
  if freePlaces s ≠ 0 ∧ freePlaces s1 = 0 then raise .holdFull s1 else s1

/-- The HOLD_GAP record made ahead of a record that is handed over (R174), when a count is nonzero and
a place is free beside the one that record takes. -/
def placeGap (reserved : Bool) (s : State) : State :=
  if (s.link.holdGap ≠ 0 ∨ s.link.lost ≠ 0) ∧ (if reserved then 1 else 2) ≤ freePlaces s then
    placeRecord false s.clock.now (.holdGap s.link.holdGap s.link.lost)
      { s with link := { s.link with holdGap := 0, lost := 0 } }
  else s

/-- What follows the placing of a record in an empty queue (R170, R172): in RUNNING its write begins
at once, and a record behind it waits its turn; HOLDING is raised when the write does not begin. A write
whose first access meets an error counts as begun (DESIGN CHOICE, notes/assumptions/39.md). Of a HOLD_GAP
record and the record behind it, the first is the one that joins the empty queue: once its write has
begun, no HOLDING is raised for the second (DESIGN CHOICE, notes/assumptions/43.md). -/
def beginWrites (s : State) : State :=
  if s.regs.run = .running then
    match tryWriteHead s with
    | (.wrote, s1) => writeHeads 1 s1
    | (.blocked, s1) => raise .holding s1
    | (.failed, s1) => s1
  else raise .holding s

/-- A block hands over a record (R170, R171, R174). A grant's record takes the place reserved for it;
any other takes a free place, or is discarded and counted as lost. In CLEARING no record is placed
(11.2). -/
def handOver (reserved : Bool) (time : Stamp) (b : RecordBody) (s : State) : State :=
  if s.regs.run = .clearing then s
  else if reserved = false ∧ freePlaces s = 0 then
    { s with link := { s.link with lost := satAdd 65535 s.link.lost 1 } }
  else
    let s1 := placeRecord reserved time b (placeGap reserved s)
    if s.link.queue.isEmpty then beginWrites s1 else s1

/-- Hands over a record whose header carries the plant time now. -/
def report (b : RecordBody) (s : State) : State := handOver false s.clock.now b s

/-! ### Outstanding grants -/

/-- An outstanding grant at some door names the slot. -/
def grantNames (s : State) (slot : Nat) : Bool :=
  s.doors.toList.any fun d =>
    match d.grant with
    | some g => g.slot == slot
    | none => false

/-- The doors that hold a grant. -/
def grantCount (s : State) : Nat := s.doors.toList.countP fun d => d.grant.isSome

end Sys2Proof.Machine
end

