-- ==== Sys2Proof/Machine/Calendar.lean ====
section
/-! DEFINITION. The calendar and the shift tables (1.7 to 1.9): day types, the exception list, and the
resolution of a worker's shift. -/

namespace Sys2Proof.Machine

/-- Total order of times: beats since the plant epoch. -/
def beatsOf (t : Stamp) : Nat := t.sec * 16 + t.beat

/-- The plant day of a plant second. -/
def dayOf (sec : Nat) : Nat := sec / Config.daySeconds

/-! ### Day types (R16) -/

/-- The type of the exception list's entry for a day, if it holds one. -/
def exceptionType (cal : Calendar) (day : Nat) : Option Nat :=
  (cal.exceptions.find? fun e => e.1 == day).map (·.2)

/-- The day type of a day; with the tables empty every day is type 0. -/
def dayType (cal : Calendar) (day : Nat) : Nat :=
  match exceptionType cal day with
  | some t => t
  | none => cal.week.getD ((day + cal.epochWeekday) % 7) 0

/-- The HOLIDAY flag of a day. -/
def isHoliday (cal : Calendar) (day : Nat) : Bool := cal.holidays.getD (dayType cal day) false

/-! ### The exception list (R17 to R20) -/

/-- Inserts an entry at its place in day order, or replaces the type of the entry for that day. -/
def putException (day type : Nat) : List (Nat × Nat) → List (Nat × Nat)
  | [] => [(day, type)]
  | (d, t) :: rest =>
    if day = d then (day, type) :: rest
    else if day < d then (day, type) :: (d, t) :: rest
    else (d, t) :: putException day type rest

/-- Removes the entry for a day. -/
def dropException (day : Nat) (l : List (Nat × Nat)) : List (Nat × Nat) := l.filter fun e => e.1 != day

/-- The pruning of a midnight into day `day` (R20): entries earlier than day − 7 go. -/
def pruneExceptions (day : Nat) (l : List (Nat × Nat)) : List (Nat × Nat) :=
  l.filter fun e => day ≤ e.1 + 7

/-! ### Shifts (R22, R23) -/

/-- The entry of a shift number, if the shift is VALID. -/
def shiftEntry (cal : Calendar) (n : Nat) : Option Shift :=
  if n = 0 then none else (cal.shifts[n - 1]?).filter (·.valid)

/-- The rota entry of crew `c` on a day, with floor mod; 0 means no shift. -/
def rotaShift (cal : Calendar) (c day : Nat) : Nat :=
  match cal.crews[c - 1]? with
  | some crew => crew.rota.getD (((day : Int) - (crew.anchor : Int)) % (crew.cycle : Int)).toNat 0
  | none => 0

/-- The shift number of an assignment on a day; 0 means none (R22, R31). -/
def assignedShift (cal : Calendar) (a : Assignment) (day : Nat) : Nat :=
  match a with
  | .none_ => 0
  | .crew c => rotaShift cal c day
  | .shift n => n

/-- The run (day, shift, Ts, Te) of an assignment's shift on a day (R22). -/
def shiftRunOn (cal : Calendar) (a : Assignment) (day : Nat) : Option ShiftRun :=
  let n := assignedShift cal a day
  (shiftEntry cal n).map fun sh =>
    let ts := day * Config.daySeconds + sh.start * 60
    { day := day, shift := n, ts := ts, te := ts + sh.length * 60 }

/-- The admitMin window [Ts − admitMin × 60, Te) of a run contains `t` (R23). -/
def admits (admitMin t : Nat) (r : ShiftRun) : Bool := r.ts ≤ t + admitMin * 60 && t < r.te

/-- The shift that a worker assigned `a`, under a rule with the given admitMin, is in at `t` (R23): of the
runs of the plant day and of the day before whose window contains `t`, the one with the later Ts;
none is UNSCHEDULED. -/
def resolveShift (cal : Calendar) (a : Assignment) (admitMin t : Nat) : Option ShiftRun :=
  let day := dayOf t
  let today := (shiftRunOn cal a day).filter (admits admitMin t)
  let before := if day = 0 then none else (shiftRunOn cal a (day - 1)).filter (admits admitMin t)
  match today, before with
  | some x, some y => some (if x.ts < y.ts then y else x)
  | some x, none => some x
  | none, y => y

end Sys2Proof.Machine
end

