-- ==== Sys2Proof/Machine/Pay.lean ====
section
/-! DEFINITION. The pay calculator (chapter 7): rounding, the nine steps of a closing, and the money of
a statement copy. -/

namespace Sys2Proof.Machine

/-- An entry of the empty pay rule table (R119): it answers admitMin 0. -/
def PayRule.empty : PayRule :=
  { admitMin := 0, graceLate := 0, graceOut := 0, quantum := 0, rounding := .favourPlant, breakMin := 0,
    breakAt := 0, overtimeAt := 0, nightMul := 0, otMul := 0, holMul := 0 }

/-- The entry of a pay rule number. -/
def payRule (p : PayTables) (n : Nat) : PayRule := p.rules.getD n PayRule.empty

/-- round_in (R122). -/
def roundIn (r : PayRule) (t : Nat) : Nat :=
  let q := r.quantum * 60
  match r.rounding with
  | .favourPlant => (t + q - 1) / q * q
  | .nearest => (t + r.quantum * 30) / q * q

/-- round_out (R122). -/
def roundOut (r : PayRule) (t : Nat) : Nat :=
  let q := r.quantum * 60
  match r.rounding with
  | .favourPlant => t / q * q
  | .nearest => roundIn r t

/-- A minute of day lies in the night window (R120). -/
def inNight (p : PayTables) (m : Nat) : Bool :=
  if p.nStart < p.nEnd then p.nStart ≤ m && m < p.nEnd
  else if p.nEnd < p.nStart then p.nStart ≤ m || m < p.nEnd
  else false

/-- The three kinds of minute (R126). -/
inductive MinuteKind where
  | day | night | holiday
deriving DecidableEq, Repr

/-- The kind of the minute that begins at a plant second (R126). -/
def minuteKind (cal : Calendar) (p : PayTables) (s : Nat) : MinuteKind :=
  if isHoliday cal (dayOf s) then .holiday
  else if inNight p (s % Config.daySeconds / 60) then .night
  else .day

/-- The number of minutes of a kind among the `m` minutes from `start` on (R126). -/
def countMinutes (cal : Calendar) (p : PayTables) (k : MinuteKind) (start : Nat) : Nat → Nat
  | 0 => 0
  | m + 1 => countMinutes cal p k start m + bit (minuteKind cal p (start + m * 60) == k)

/-- Step 1 (R123): e_in with its LATE flag, clamped to last e_out. -/
def effectiveIn (r : PayRule) (i : OpenInterval) (lastEOut : Nat) : Nat × Bool :=
  let (e, late) :=
    match i.captured with
    | some c =>
      if i.tIn ≤ c.ts + r.graceLate * 60 then (c.ts, false) else (max c.ts (roundIn r i.tIn), true)
    | none => (roundIn r i.tIn, false)
  (max e lastEOut, late)

/-- Step 2 (R124): e_out of a clock-out at `t`, with its LEFT_EARLY flag. -/
def effectiveOut (r : PayRule) (captured : Option ShiftRun) (t : Nat) : Nat × Bool :=
  match captured with
  | some c =>
    if c.te ≤ t then (max c.te (roundOut r t), false)
    else if c.te ≤ t + r.graceOut * 60 then (c.te, false)
    else (roundOut r t, true)
  | none => (roundOut r t, false)

/-- Step 3 (R125): the span in minutes. -/
def spanMinutes (eIn eOut : Nat) : Nat := if eOut ≤ eIn then 0 else (eOut - eIn) / 60

/-- The accumulators of a worker with one addition each, and whether one was cut at 65535 (R129). -/
def addClasses (w : Worker) (reg night ot hol : Nat) : Worker × Bool :=
  let cut := decide (65535 < w.reg + reg) || decide (65535 < w.night + night) ||
    decide (65535 < w.ot + ot) || decide (65535 < w.hol + hol)
  ({ w with
      reg := satAdd 65535 w.reg reg, night := satAdd 65535 w.night night, ot := satAdd 65535 w.ot ot,
      hol := satAdd 65535 w.hol hol, saturated := w.saturated || cut }, cut)

/-- The closing of an open interval (R121 to R130): with `tOut` a clock-out at that time, without it an
auto-close with the fixed e_out of R112. Gives the record with the interval removed, and what the
calculator hands back. -/
def closing (cal : Calendar) (p : PayTables) (w : Worker) (i : OpenInterval) (tOut : Option Nat) :
    Worker × ClosingResult :=
  let r := payRule p i.rule
  let (eIn, late) := effectiveIn r i w.lastEOut
  let (eOut, leftEarly) :=
    match tOut with
    | some t => effectiveOut r i.captured t
    | none => (match i.captured with
      | some c => (c.te, false)
      | none => (eIn, false))
  let m := spanMinutes eIn eOut
  let dm := countMinutes cal p .day eIn m
  let n := countMinutes cal p .night eIn m
  let h := countMinutes cal p .holiday eIn m
  let takes := !w.breakTaken && decide (0 < r.breakMin) && decide (r.breakAt ≤ w.cday + m)
  let b := if takes then min r.breakMin m else 0
  let dm1 := dm - min b dm
  let n1 := n - min (b - min b dm) n
  let h1 := h - min (b - min b dm - min (b - min b dm) n) h
  let net := dm1 + n1 + h1
  let x := min (w.cday + net - r.overtimeAt) (dm1 + n1)
  let dm2 := dm1 - min x dm1
  let n2 := n1 - (x - min x dm1)
  let (w1, cut) := addClasses w dm2 n2 x h1
  ({ w1 with
      interval := none
      cday := satAdd 4095 w.cday net
      breakTaken := w.breakTaken || takes
      lastEOut := max w.lastEOut eOut },
   { eIn := eIn, eOut := eOut, reg := dm2, night := n2, ot := x, hol := h1, breakMin := b,
     grade := w.grade, late := late, leftEarly := leftEarly,
     missedOut := tOut.isNone && i.captured.isSome, tookBreak := takes, saturated := cut })

/-- The amount of a class in cents (R131). -/
def classCents (minutes rate mul : Nat) : Nat := (minutes * rate * mul + 240) / 480

/-- The statement record of a worker (R133, R131): `reset` tells whether the copy clears. -/
def statementRec (p : PayTables) (now : Stamp) (slot : Nat) (w : Worker) (reset : Bool) :
    StatementRec :=
  let r := payRule p w.rule
  let rate := p.grades.getD w.grade 0
  { slot := slot, issue := w.issue, saturated := w.saturated, on := w.interval.isSome,
    latePending := (match w.interval with
      | some i => i.late
      | none => false),
    reset := reset, badge := w.badge, reg := w.reg, night := w.night, ot := w.ot, hol := w.hol,
    regCents := classCents w.reg rate 8, nightCents := classCents w.night rate r.nightMul,
    otCents := classCents w.ot rate r.otMul, holCents := classCents w.hol rate r.holMul,
    grade := w.grade, rule := w.rule, location := w.location, time := now }

end Sys2Proof.Machine
end

