-- ==== Sys2Proof/Machine/Workers.lean ====
section
/-! DEFINITION. The worker table (chapter 2): slots, the badge index, locations with the zone counts
they move (R67), and the tests of ENROL and AMEND. -/

namespace Sys2Proof.Machine

/-! ### Slots -/

/-- The worker of an in-use slot. -/
def lookupSlot (slot : Nat) : List (Nat × Worker) → Option Worker
  | [] => none
  | (k, w) :: rest => if slot = k then some w else lookupSlot slot rest

/-- Puts a worker in a slot, in slot order. -/
def putSlot (slot : Nat) (w : Worker) : List (Nat × Worker) → List (Nat × Worker)
  | [] => [(slot, w)]
  | (k, v) :: rest =>
    if slot = k then (slot, w) :: rest
    else if slot < k then (slot, w) :: (k, v) :: rest
    else (k, v) :: putSlot slot w rest

/-- Frees a slot. -/
def dropSlot (slot : Nat) (l : List (Nat × Worker)) : List (Nat × Worker) := l.filter fun e => e.1 != slot

/-- The worker of an in-use slot. -/
def workerAt (s : State) (slot : Nat) : Option Worker := lookupSlot slot s.table.workers

/-- The state with another list of in-use slots. -/
def setWorkers (s : State) (l : List (Nat × Worker)) : State :=
  { s with table := { s.table with workers := l } }

/-- Writes a worker record that is in use. -/
def setWorker (slot : Nat) (w : Worker) (s : State) : State := setWorkers s (putSlot slot w s.table.workers)

/-- A slot number of the table in force: below W (R24). -/
def slotInRange (s : State) (slot : Nat) : Bool :=
  match s.table.capacity with
  | some w => slot < w
  | none => false

/-- The slots in use, ascending. -/
def slotsInUse (s : State) : List Nat := s.table.workers.map (·.1)

/-! ### The badge index (R30) -/

/-- The slot of a badge. -/
def lookupBadge (badge : Nat) : List (Nat × Nat) → Option Nat
  | [] => none
  | (b, slot) :: rest => if badge = b then some slot else lookupBadge badge rest

/-- Inserts a pair at its place in badge order. -/
def insertBadge (badge slot : Nat) : List (Nat × Nat) → List (Nat × Nat)
  | [] => [(badge, slot)]
  | (b, k) :: rest =>
    if badge < b then (badge, slot) :: (b, k) :: rest else (b, k) :: insertBadge badge slot rest

/-- Removes the pair of a badge. -/
def dropBadge (badge : Nat) (l : List (Nat × Nat)) : List (Nat × Nat) := l.filter fun e => e.1 != badge

/-! ### Locations (R29, R67) -/

/-- One worker more in a zone. -/
def addOccupant (z : ZoneNo) (s : State) : State :=
  modZone z (fun e => { e with occupancy := e.occupancy + 1 }) s

/-- One worker less in a zone. -/
def dropOccupant (z : ZoneNo) (s : State) : State :=
  modZone z (fun e => { e with occupancy := e.occupancy - 1 }) s

/-- Moves a worker to a zone, and the counts with it (R67). -/
def moveWorker (slot : Nat) (z : ZoneNo) (s : State) : State :=
  match workerAt s slot with
  | none => s
  | some w =>
    if w.location = z then s
    else addOccupant z (dropOccupant w.location (setWorker slot { w with location := z } s))

/-- The record of a created worker: the creation column of 2.2. -/
def newWorker (p : EnrolParams) (a : Assignment) : Worker :=
  { badge := p.badge, issue := p.issue, assignment := a, rule := p.rule, grade := p.grade,
    profile := p.profile, clearance := p.clearance, suspended := p.suspended,
    unschedOk := p.unschedOk, location := 0, interval := none, lastKey := none, cday := 0,
    breakTaken := false, lastEOut := 0, reg := 0, night := 0, ot := 0, hol := 0, saturated := false,
    muster := false }

/-- Frees a worker's slot (R27, R35): in-use no, index pair removed, occupancy of the location down. -/
def freeWorker (slot : Nat) (s : State) : State :=
  match workerAt s slot with
  | none => s
  | some w =>
    dropOccupant w.location
      { s with table := { s.table with
          workers := dropSlot slot s.table.workers
          index := dropBadge w.badge s.table.index } }

/-- Clears the worker table (R41 step 2, R42): no slot in use, the index empty, every occupancy 0. -/
def clearTable (s : State) : State :=
  { s with
    table := { s.table with workers := [], index := [] }
    zones := s.zones.map fun z => { z with occupancy := 0 } }

/-! ### The tests of ENROL and AMEND (R31 to R33) -/

/-- The assignment that a kind byte and a number byte spell, if R31 passes it. -/
def assignmentOf (cal : Calendar) (kind n : Nat) : Option Assignment :=
  if kind = 0 then some .none_
  else if kind = 1 then (if 1 ≤ n ∧ n ≤ 8 then some (.crew n) else none)
  else if kind = 2 then (if (shiftEntry cal n).isSome then some (.shift n) else none)
  else none

/-- A badge number in range (R32): not 0, not all-ones. -/
def badgeInRange (n : Nat) : Bool := 1 ≤ n && n < Config.allOnes

/-- The fields other than slot, badge and assignment lie in their ranges (2.2). -/
def fieldsInRange (p : EnrolParams) : Bool :=
  p.issue ≤ 15 && p.rule ≤ 7 && p.grade ≤ 31 && p.profile ≤ 63 && p.clearance ≤ 3

/-- The refusals of ENROL in their order, or the assignment to enrol with (R32). -/
def enrolTest (s : State) (p : EnrolParams) : Except Status Assignment :=
  match assignmentOf s.cal p.assignKind p.assignNo with
  | none => .error .range
  | some a =>
    if !(slotInRange s p.slot && badgeInRange p.badge && fieldsInRange p) then .error .range
    else if (workerAt s p.slot).isSome then .error .slotInUse
    else if (lookupBadge p.badge s.table.index).isSome then .error .badgeInUse
    else .ok a

/-- Creates the record and its index pair (R32). -/
def enrolWorker (p : EnrolParams) (a : Assignment) (s : State) : State :=
  { s with table := { s.table with
      workers := putSlot p.slot (newWorker p a) s.table.workers
      index := insertBadge p.badge p.slot s.table.index } }

/-- The present fields of an AMEND lie in their ranges (R33). -/
def amendInRange (s : State) (p : AmendParams) : Bool :=
  let on := fun i => p.mask.getLsbD i
  let v := p.vals
  slotInRange s v.slot && (!on 0 || badgeInRange v.badge) && (!on 1 || decide (v.issue ≤ 15)) &&
    (!on 2 || (assignmentOf s.cal v.assignKind v.assignNo).isSome) &&
    (!on 3 || decide (v.rule ≤ 7)) && (!on 4 || decide (v.grade ≤ 31)) &&
    (!on 5 || decide (v.profile ≤ 63)) && (!on 6 || decide (v.clearance ≤ 3))

/-- The record with the present fields written (R33). -/
def amendWorker (cal : Calendar) (p : AmendParams) (w : Worker) : Worker :=
  let on := fun i => p.mask.getLsbD i
  let v := p.vals
  { w with
    badge := if on 0 then v.badge else w.badge
    issue := if on 1 then v.issue else w.issue
    assignment :=
      if on 2 then (assignmentOf cal v.assignKind v.assignNo).getD w.assignment else w.assignment
    rule := if on 3 then v.rule else w.rule
    grade := if on 4 then v.grade else w.grade
    profile := if on 5 then v.profile else w.profile
    clearance := if on 6 then v.clearance else w.clearance
    suspended := if on 7 then v.suspended else w.suspended
    unschedOk := if on 8 then v.unschedOk else w.unschedOk }

end Sys2Proof.Machine
end

