-- ==== Sys2Proof/Machine/Punch.lean ====
section
/-! DEFINITION. Punches and open intervals (chapter 6): clock-in, clock-out, auto-close, deadlines;
and the ends of a grant (R77, R80), which apply them. -/

namespace Sys2Proof.Machine

/-! ### Clock-in and clock-out -/

/-- The open limit A of the setup in force (R110). -/
def openLimit (s : State) : Nat :=
  match s.link.setup with
  | some su => su.openLimit
  | none => 0

/-- The auto-close deadline of an interval (R110). -/
def deadlineOf (limit : Nat) (captured : Option ShiftRun) (tIn : Nat) : Nat :=
  match captured with
  | some c => c.te + limit * 60
  | none => tIn + 57600

/-- The key of a captured shift (R106). -/
def keyOf (r : PayRule) (captured : Option ShiftRun) (tIn : Nat) : ShiftKey :=
  match captured with
  | some c => .scheduled c.day c.shift
  | none => .unscheduled (dayOf (roundIn r tIn))

/-- A clock-in at `t` (R105): the worker record with its interval opened, the interval, and the
NEW_INSTANCE flag of R107. -/
def clockIn (cal : Calendar) (p : PayTables) (limit t : Nat) (w : Worker) :
    Worker × OpenInterval × Bool :=
  let r := payRule p w.rule
  let captured := resolveShift cal w.assignment r.admitMin t
  let key := keyOf r captured t
  let newRun := decide (w.lastKey ≠ some key)
  let late :=
    match captured with
    | some c => decide (c.ts + r.graceLate * 60 < t)
    | none => false
  let i : OpenInterval :=
    { tIn := t, captured := captured, rule := w.rule, late := late,
      deadline := deadlineOf limit captured t, due := false, waiting := false }
  ({ w with
      interval := some i
      lastKey := some key
      cday := if newRun then 0 else w.cday
      breakTaken := if newRun then false else w.breakTaken
      lastEOut := if newRun then 0 else w.lastEOut }, i, newRun)

/-- The punch of a passage or of a CLOCK_ONLY presentation is applied to the worker record (R104); gives
the state and the body of the record that carries it (R79, R107, R108). -/
def applyPunch (kind : PunchKind) (p : PassageInfo) (s : State) : State × RecordBody :=
  match kind with
  | .punchIn =>
    (match workerAt s p.slot with
    | some w =>
      let (w1, i, newRun) := clockIn s.cal s.pay (openLimit s) p.time.sec w
      (setWorker p.slot w1 s, .punchIn p i.captured i.rule i.deadline i.late newRun)
    | none => (s, .passage p))
  | .punchOut =>
    (match workerAt s p.slot with
    | some w =>
      (match w.interval with
      | some i =>
        let (w1, c) := closing s.cal s.pay w i (some p.time.sec)
        (setWorker p.slot w1 s, .punchOut p i.tIn i.captured c)
      | none => (s, .strayOut p))
    | none => (s, .passage p))
  | .reentry => (s, .reentry p)
  | .strayOut => (s, .strayOut p)
  | .passage => (s, .passage p)

/-! ### Auto-closes and deadlines -/

/-- Closes an ON worker's interval without a punch and makes its AUTO_CLOSE record (R112). -/
def autoClose (slot : Nat) (cause : CloseCause) (s : State) : State :=
  match workerAt s slot with
  | none => s
  | some w =>
    match w.interval with
    | none => s
    | some i =>
      let (w1, c) := closing s.cal s.pay w i none
      report (.autoClose slot w.badge w.issue cause w.location i c) (setWorker slot w1 s)

/-- Applies `f` to the open interval of an ON worker. -/
def modInterval (slot : Nat) (f : OpenInterval → OpenInterval) (s : State) : State :=
  match workerAt s slot with
  | none => s
  | some w =>
    match w.interval with
    | none => s
    | some i => setWorker slot { w with interval := some (f i) } s

/-- A worker's deadline is acted on (R111): left alone outside RUNNING and ISOLATED and under a grant,
else closed at once, or marked waiting where there is no room (R113). -/
def actOnDeadline (slot : Nat) (s : State) : State :=
  let s1 := modInterval slot (fun i => { i with due := false }) s
  if !gatesRun s1 || grantNames s1 slot then s1
  else if hasRoom s1 then autoClose slot .deadline s1
  else modInterval slot (fun i => { i with waiting := true }) s1

/-- Inserts a (deadline, slot) pair before the later deadlines. -/
def insertDeadline (e : Nat × Nat) : List (Nat × Nat) → List (Nat × Nat)
  | [] => [e]
  | x :: rest => if e.1 ≤ x.1 then e :: x :: rest else x :: insertDeadline e rest

/-- The slots of the ON workers whose interval passes a test, in ascending order of deadline and then
of slot (R111). -/
def slotsByDeadline (p : OpenInterval → Bool) (s : State) : List Nat :=
  ((s.table.workers.filterMap fun e =>
      match e.2.interval with
      | some i => if p i then some (i.deadline, e.1) else none
      | none => none).foldr insertDeadline []).map (·.2)

/-- Acts on the deadlines of the slots listed, in that order. -/
def actOnDeadlines (slots : List Nat) (s : State) : State := slots.foldl (fun s k => actOnDeadline k s) s

/-- The first of the deadlines that counting has reached is acted on (R111). -/
def firstDeadline (s : State) : State :=
  match slotsByDeadline (·.due) s with
  | slot :: _ => actOnDeadline slot s
  | [] => s

/-- Applies `f` to every open interval. -/
def mapIntervals (f : OpenInterval → OpenInterval) (s : State) : State :=
  setWorkers s (s.table.workers.map fun e => (e.1, { e.2 with interval := e.2.interval.map f }))

/-- Drops the marks of deadlines reached by counting and not yet acted on, and keeps the deadlines: HALT
leaves them for the entry to RUNNING, which finds them by their times (R114). -/
def dropDue (s : State) : State := mapIntervals (fun i => { i with due := false }) s

/-- The deadlines at or before plant time at an entry to RUNNING (R114). The entry goes by the times
alone: a mark that counting set before it stands no more. -/
def entryDeadlines (s : State) : State :=
  actOnDeadlines (slotsByDeadline (fun i => i.deadline ≤ s.clock.now.sec) s) (dropDue s)

/-- The step notice to the punch logic (R115). -/
def stepDeadlines (old new : Stamp) (s : State) : State :=
  if gatesRun s then
    actOnDeadlines (slotsByDeadline (fun i =>
      !i.waiting && beatsOf old < i.deadline * 16 && i.deadline * 16 ≤ beatsOf new) s) s
  else s

/-- Counting into a plant second at beat 0 reaches the deadlines that equal it (R111): in RUNNING and
ISOLATED they are marked for DEADLINE_REACHED; in any other run state they are left unacted, and the
entry to RUNNING finds them by their times (R114). -/
def markDeadlines (sec : Nat) (s : State) : State :=
  mapIntervals
    (fun i => { i with due := i.due || (gatesRun s && i.deadline == sec && !i.waiting) }) s

/-! ### The ends of a grant -/

/-- What the punch logic does at once after a grant's record has been made (R76, R116). A PUNCH_IN whose
fresh deadline the plant time has already passed is closed here too (DESIGN CHOICE,
notes/assumptions/35.md). -/
def afterGrant (slot : Nat) (s : State) : State :=
  match workerAt s slot with
  | none => s
  | some w =>
    match w.interval with
    | none => s
    | some i => if gatesRun s && i.deadline ≤ s.clock.now.sec then actOnDeadline slot s else s

/-- One reservation less in a zone (R68). -/
def dropReservation (z : ZoneNo) (s : State) : State :=
  modZone z (fun e => { e with reserved := e.reserved - 1 }) s

/-- One reservation more in a zone (R68). -/
def addReservation (z : ZoneNo) (s : State) : State :=
  modZone z (fun e => { e with reserved := e.reserved + 1 }) s

/-- What a record P carries of a worker (R79). -/
def passageInfo (s : State) (slot : Nat) (door : Option DoorNo) (line : LineNo) (inward : Bool)
    (target : ZoneNo) (time : Stamp) (apbSoft : Bool) : PassageInfo :=
  match workerAt s slot with
  | some w =>
    { slot := slot, badge := w.badge, issue := w.issue, door := door, line := line, inward := inward,
      oldLocation := w.location, newLocation := target, time := time, apbSoft := apbSoft }
  | none =>
    { slot := slot, badge := 0, issue := 0, door := door, line := line, inward := inward,
      oldLocation := 0, newLocation := target, time := time, apbSoft := apbSoft }

/-- A grant that the door has let go ends in a passage (R77), at the plant time now. -/
def passGrant (d : DoorNo) (g : Grant) (s : State) : State :=
  let p := passageInfo s g.slot (some d) g.line g.inward g.target g.time g.apbSoft
  let s1 := dropReservation g.target (moveWorker g.slot g.target s)
  let (s2, body) := applyPunch g.kind p s1
  afterGrant g.slot (handOver true s.clock.now body s2)

/-- The door lets its grant go, and the grant lapses (R80). -/
def lapseGrant (d : DoorNo) (cause : LapseCause) (s : State) : State :=
  match s.doors[d].grant with
  | none => s
  | some g =>
    let badge := (workerAt s g.slot).elim 0 (·.badge)
    let s1 := dropReservation g.target (modDoor d (fun e => { e with grant := none }) s)
    afterGrant g.slot
      (handOver true s.clock.now (.lapsed g.slot badge d g.line g.inward g.kind cause g.time) s1)

end Sys2Proof.Machine
end

