-- ==== Sys2Proof/Machine/Withdraw.lean ====
section
/-! DEFINITION. WITHDRAW (R35 to R37), the waiting closings, and the drain that serves both (R113,
R173). -/

namespace Sys2Proof.Machine

/-- The output area of a request is refused NO_OUTPUT or RANGE (R168). -/
def outputTest (out : OutArea) : Option Status :=
  if out.addr = 0 ∨ out.cap = 0 then some .noOutput
  else if out.addr.toNat % 4 ≠ 0 then some .range
  else none

/-- A worker is settled (R35): OFF with every accumulator 0. -/
def settled (w : Worker) : Bool :=
  w.interval.isNone && w.reg == 0 && w.night == 0 && w.ot == 0 && w.hol == 0

/-- The refusals of WITHDRAW in their order (R35, R36). -/
def withdrawTest (s : State) (slot : Nat) (force : Bool) (out : OutArea) : Option Status :=
  if !slotInRange s slot then some .range
  else match workerAt s slot with
    | none => some .slotEmpty
    | some w =>
      if grantNames s slot then some .grantPending
      else if force then outputTest out
      else if settled w then none else some .notSettled

/-- The request in progress at another stage. -/
def setStage (g : Stage) (s : State) : State :=
  { s with link := { s.link with request := s.link.request.map fun q => { q with stage := g } } }

/-- Holds an output record for the request in progress (R168). -/
def holdOutput (o : HeldOutput) (s : State) : State :=
  setStage .output { s with link := { s.link with output := some o } }

/-- The act of a forced WITHDRAW (R36): the closing of an ON worker, its statement record, the freeing. -/
def forcedWithdraw (slot : Nat) (s : State) : State :=
  let s1 := autoClose slot .withdraw s
  match workerAt s1 slot with
  | none => s1
  | some w =>
    holdOutput (.statement (statementRec s1.pay s1.clock.now slot w false)) (freeWorker slot s1)

/-- The worker of a slot is ON. -/
def isOn (s : State) (slot : Nat) : Bool := (workerAt s slot).any (·.interval.isSome)

/-- The take of a WITHDRAW (R35 to R37). -/
def takeWithdraw (slot : Nat) (force : Bool) (out : OutArea) (s : State) : State :=
  match withdrawTest s slot force out with
  | some st => endRequest st (some 0) none s
  | none =>
    if force then
      if isOn s slot && !hasRoom s then setStage .deferred s else forcedWithdraw slot s
    else endRequest .done (some 0) none (freeWorker slot s)

/-- A deferred forced WITHDRAW, once a place frees, is tested again and carried out (R37). -/
def resumeWithdraw (s : State) : State :=
  match s.link.request with
  | some ⟨.withdraw slot force out, _, .deferred, _, _⟩ =>
    (match withdrawTest s slot force out with
    | some st => endRequest st (some 0) none s
    | none => forcedWithdraw slot s)
  | _ => s

/-- A forced WITHDRAW waits for a place. -/
def withdrawWaits (s : State) : Bool :=
  match s.link.request with
  | some q => q.stage == .deferred
  | none => false

/-- The slots whose closing waits, in the order they are served (R113). -/
def waitingSlots (s : State) : List Nat := slotsByDeadline (·.waiting) s

/-- The arbiter of R113 over the free places in RUNNING: the deferred WITHDRAW first, then the waiting
closings; none when nothing waits or there is no room. -/
def serveOne (s : State) : Option State :=
  if s.regs.run = .running ∧ hasRoom s = true then
    if withdrawWaits s then some (resumeWithdraw s)
    else match waitingSlots s with
      | slot :: _ => some (autoClose slot .deadline s)
      | [] => none
  else none

/-- Serves those that wait, at most `n`. -/
def serveAll : Nat → State → State
  | 0, s => s
  | n + 1, s =>
    match serveOne s with
    | some s1 => serveAll n s1
    | none => s

/-- The most acts the arbiter can make: one for each closing that waits and one for a WITHDRAW. -/
def waiters (s : State) : Nat := (waitingSlots s).length + 1

/-- The writes of a drain, at most `n` of them; before each the arbiter hands out the places that stand
free (R173). -/
def drainSteps : Nat → State → State
  | 0, s => s
  | n + 1, s =>
    let s1 := serveAll (waiters s) s
    if s1.regs.run = .running ∧ s1.link.queue.isEmpty = false then
      match tryWriteHead s1 with
      | (.wrote, s2) => drainSteps n s2
      | (_, s2) => s2
    else s1

/-- A drain (R173): head records are written until the queue is empty or the head finds a FILLED
entry. The bound counts the records held and the two that each waiter can add. -/
def drain (s : State) : State :=
  if s.regs.run = .running then drainSteps (s.link.queue.length + 2 * waiters s + 1) s else s

end Sys2Proof.Machine
end

