-- ==== Sys2Proof/Machine/Doors.lean ====
section
/-! DEFINITION. The door controller (chapter 5): relays, recompute, contact events, REX, expiries, relay
supervision, and the requests DOOR_MODE, DOOR_PULSE and CLEAR_FAULT. -/

namespace Sys2Proof.Machine

/-! ### Relays and states -/

/-- The relay command a door state gives (R85). -/
def relayOf : DoorState → Relay
  | .released | .free | .egress => .released
  | .inactive | .secure | .open_ | .held | .forced | .fault => .locked

/-- The command that a door's state gives its relay, a REX window counted (R85, R94). -/
def wantedRelay (e : Door) : Relay :=
  if (e.state = .inactive ∨ e.state = .fault) ∧ e.release.isSome then .released else relayOf e.state

/-- Commands a door's relay (R86, R98): in rehearsal every relay is commanded LOCKED in every state
except EGRESS, and a change of the command starts the settle check of a supervised door. A finding
already reached stands (R81). -/
def drive (rehearsal : Bool) (want : Relay) (e : Door) : Door :=
  let c := if rehearsal && e.state != .egress then .locked else want
  if e.cmd = c then e
  else { e with
    cmd := c
    settle := if e.entry.supervised then some Config.settleBeats else none
    disagree := 0 }

/-- A door enters a state: its timers stop, its alarm and open start times go, and its relay follows
(R85). -/
def enter (rehearsal : Bool) (st : DoorState) (e : Door) : Door :=
  drive rehearsal (relayOf st)
    { e with state := st, release := none, held := none, alarmStart := none, openStart := none }

/-- A door enters RELEASED for a number of seconds (R88, R94, R97). -/
def releaseFor (rehearsal : Bool) (seconds : Nat) (e : Door) : Door :=
  { enter rehearsal .released e with release := some (seconds * 16) }

/-- A door enters OPEN at a time, its held timer at the held-open limit (R87, R90). -/
def enterOpen (rehearsal : Bool) (now : Stamp) (e : Door) : Door :=
  { enter rehearsal .open_ e with held := some (e.entry.heldLimit * 16), openStart := some now }

/-- A REX window starts, or starts again (R94). -/
def startWindow (rehearsal : Bool) (e : Door) : Door :=
  drive rehearsal .released { e with release := some (e.entry.release * 16) }

/-- A REX window ends. -/
def endWindow (rehearsal : Bool) (e : Door) : Door := drive rehearsal .locked { e with release := none }

/-- The state that recompute sets (R87). -/
def recomputedState (s : State) (e : Door) : DoorState :=
  if fireActive s then .egress
  else if !gatesRun s then .inactive
  else if e.mark then .fault
  else if e.entry.mode = .free then .free
  else if e.contact = .closed then .secure
  else .open_

/-- Recompute of a door (R87). -/
def recompute (d : DoorNo) (s : State) : State :=
  let st := recomputedState s s.doors[d]
  if st = .inactive ∧ s.doors[d].state = .inactive then s
  else modDoor d (fun e =>
    if st = .open_ then enterOpen s.mode.rehearsal s.clock.now e else enter s.mode.rehearsal st e) s

/-! ### Contact events (R83, R90 to R92) -/

/-- The contact state that a contact circuit gives through a polarity (R83). -/
def contactOf (p : Polarity) (closed : Bool) : Contact :=
  match p, closed with
  | .nc, true => .closed
  | .nc, false => .open_
  | .no, true => .open_
  | .no, false => .closed

/-- The end of a FORCED or HELD alarm by a closing (R92). -/
def restore (d : DoorNo) (alarm : Alarm) (s : State) : State :=
  let start := s.doors[d].alarmStart.getD s.clock.now
  report (.doorRestored d alarm start) (modDoor d (enter s.mode.rehearsal .secure) s)

/-- One contact event: the contact state changes and the door acts as its state requires. -/
def contactEvent (d : DoorNo) (c : Contact) (s : State) : State :=
  let e := s.doors[d]
  let s1 := modDoor d (fun e => { e with contact := c }) s
  match c, e.state with
  | .open_, .released =>
    let s2 := modDoor d (fun e =>
      { enterOpen s.mode.rehearsal s.clock.now e with grant := none }) s1
    (match e.grant with
    | some g => passGrant d g s2
    | none => s2)
  | .open_, .secure =>
    let s2 := modDoor d (fun e =>
      { enter s.mode.rehearsal .forced e with alarmStart := some s.clock.now }) s1
    raise .doorAlarm (report (.doorForced d e.entry.mode) s2)
  | .closed, .open_ => modDoor d (enter s.mode.rehearsal .secure) s1
  | .closed, .held => restore d .held s1
  | .closed, .forced => restore d .forced s1
  | _, _ => s1

/-- The debounced real contact circuit of a door changes (R83); in rehearsal the real input is
disregarded (R63). -/
def changeCircuit (d : DoorNo) (closed : Bool) (s : State) : State :=
  let s1 := modDoor d (fun e => { e with circuit := closed }) s
  let c := contactOf s.doors[d].entry.polarity closed
  if s.mode.rehearsal || c == s.doors[d].contact then s1 else contactEvent d c s1

/-! ### The CLEAR_FAULT check (R100) -/

/-- The request in progress is a CLEAR_FAULT check of the door. -/
def checksDoor (s : State) (d : DoorNo) : Bool :=
  match s.link.request with
  | some ⟨.clearFault n, _, .checking, _, _⟩ => n == d.val
  | _ => false

/-- A CLEAR_FAULT check of some door runs. -/
def checkRuns (s : State) : Bool :=
  match s.link.request with
  | some q => q.stage == .checking
  | none => false

/-- A CLEAR_FAULT check ends well: the mark is cleared, the door recomputed, DOOR_RESTORED made. -/
def faultCleared (d : DoorNo) (s : State) : State :=
  let start := s.doors[d].faultTime
  let s1 := recompute d (modDoor d (fun e => { e with mark := false }) s)
  endRequest .done (some 1) none (report (.doorRestored d .fault start) s1)

/-! ### REX (R84, R94) -/

/-- A REX press is taken by a door. -/
def pressRex (d : DoorNo) (s : State) : State :=
  let e := s.doors[d]
  let r := s.mode.rehearsal
  if s.regs.run = .clearing ∨ e.entry.rexEnable = false then s
  else match e.state with
    | .inactive => modDoor d (startWindow r) s
    | .secure => modDoor d (releaseFor r e.entry.release) s
    | .released => modDoor d (fun e => { e with release := some (e.entry.release * 16) }) s
    | .fault =>
      let s1 := modDoor d (startWindow r) s
      if checksDoor s d then endRequest .stillFaulted none none s1 else s1
    | .open_ | .held | .forced | .free | .egress => s

/-! ### Expiries -/

/-- The release timer of a door has reached 0 (R89, R94). -/
def releaseEnds (d : DoorNo) (s : State) : State :=
  let r := s.mode.rehearsal
  if s.doors[d].release = some 0 then
    match s.doors[d].state with
    | .released => lapseGrant d .expiry (modDoor d (enter r .secure) s)
    | .inactive | .fault => modDoor d (endWindow r) s
    | .secure | .open_ | .held | .forced | .free | .egress => s
  else s

/-- The held timer of a door has reached 0 (R92). -/
def heldEnds (d : DoorNo) (s : State) : State :=
  let e := s.doors[d]
  if e.state = .open_ ∧ e.held = some 0 then
    let start := e.openStart.getD s.clock.now
    let s1 := modDoor d (fun e =>
      { enter s.mode.rehearsal .held e with alarmStart := some start }) s
    raise .doorAlarm (report (.doorHeld d e.entry.heldLimit start) s1)
  else s

/-! ### Relay supervision (R98, R99) -/

/-- A finding of a relay mismatch is taken: with the mark already set nothing is recorded (R98); else the
mark is set, DOOR_FAULT made, DOOR_ALARM raised, and the door set as R99 gives. The record carries the
command and the readback that were compared, and the door's state at the take (DESIGN CHOICE,
notes/assumptions/42.md). -/
def finding (d : DoorNo) (f : RelayFinding) (s : State) : State :=
  let e := s.doors[d]
  if e.mark then s
  else
    let s1 := modDoor d (fun e => { e with mark := true, faultTime := s.clock.now }) s
    let s2 := raise .doorAlarm (report (.doorFault d f.kind f.cmd f.readback e.state) s1)
    match e.state with
    | .released => modDoor d (enter s.mode.rehearsal .fault) (lapseGrant d .fault s2)
    | .secure | .open_ | .held | .forced | .free => modDoor d (enter s.mode.rehearsal .fault) s2
    | .inactive | .egress | .fault => s2

/-- The finding of a kind that stands at a door. -/
def Door.stands (e : Door) (kind : FaultKind) : Option RelayFinding :=
  match e.found with
  | some f => if f.kind = kind then some f else none
  | none => none

/-- The finding that stands at a door is taken, and stands no more. -/
def takeFinding (d : DoorNo) (f : RelayFinding) (s : State) : State :=
  finding d f (modDoor d (fun e => { e with found := none }) s)

/-- The settle count of a door has reached 0 (R98, R100): a CLEAR_FAULT check ends by the readback, a
mismatch that the beat end has found is taken, and a check that matched is over. -/
def settleEnds (d : DoorNo) (s : State) : State :=
  let e := s.doors[d]
  let s1 := modDoor d (fun e => { e with settle := none, disagree := 0 }) s
  if e.settle = some 0 ∧ checksDoor s d = true then
    if e.readback = e.cmd then faultCleared d s1 else endRequest .stillFaulted none none s1
  else match e.stands .settle with
    | some f => takeFinding d f s
    | none => if e.settle = some 0 then s1 else s

/-- A fourth mismatch in a row has been found at a door (R98). -/
def driftFound (d : DoorNo) (s : State) : State :=
  match s.doors[d].stands .drift with
  | some f => takeFinding d f s
  | none => s

/-- One beat end of a timer; at 0 it rests until its expiry is taken. -/
def tick : Option Nat → Option Nat
  | some n => some (n - 1)
  | none => none

/-- What a beat end finds at a door (R98): a mismatch at the fourth beat end of a settle check, or a fourth
mismatch in a row. With the fault mark set, or a finding standing, no more is found
(notes/assumptions/29.md). -/
def Door.finds (rb : Relay) (e : Door) : Option RelayFinding :=
  if e.mark ∨ e.found.isSome ∨ rb = e.cmd then none
  else if e.settle = some 1 then some ⟨.settle, e.cmd, rb⟩
  else if e.entry.supervised ∧ e.settle = none ∧ 3 ≤ e.disagree then some ⟨.drift, e.cmd, rb⟩
  else none

/-- A beat end at a door: its timers count, and a supervised relay's readback is compared (R89, R92,
R98). A finding stands until SETTLE_CHECK or DRIFT_FINDING takes it. -/
def Door.beat (released : Bool) (e : Door) : Door :=
  let rb : Relay := if released then .released else .locked
  { e with
    release := tick e.release
    held := tick e.held
    settle := if (e.finds rb).any (·.kind == .settle) then none else tick e.settle
    readback := rb
    disagree :=
      if e.entry.supervised = false ∨ e.settle ≠ none then e.disagree
      else if rb = e.cmd ∨ 3 ≤ e.disagree then 0
      else e.disagree + 1
    found := if e.found.isSome then e.found else e.finds rb }

/-! ### Run states and fire (R101, R102) -/

/-- HALT at the doors: every grant lapses, in door order, and every door not in EGRESS becomes INACTIVE. -/
def haltDoors (s : State) : State :=
  forDoors (fun d s =>
    if s.doors[d].state = .egress then s else modDoor d (enter s.mode.rehearsal .inactive) s)
    (forDoors (fun d s => lapseGrant d .halt s) s)

/-- Egress: every grant lapses, in door order, and every door enters EGRESS; a door already there is not
changed. -/
def egressDoors (s : State) : State :=
  forDoors (fun d s =>
    if s.doors[d].state = .egress then s else modDoor d (enter s.mode.rehearsal .egress) s)
    (forDoors (fun d s => lapseGrant d .fire s) s)

/-- Every door is recomputed. -/
def recomputeDoors (s : State) : State := forDoors recompute s

/-! ### Requests -/

/-- The door of a number 0 to 11. -/
def doorOf (n : Nat) : Option DoorNo := if h : n < 12 then some ⟨n, h⟩ else none

/-- The take of a DOOR_MODE (R96). -/
def takeDoorMode (door mode : Nat) (s : State) : State :=
  match doorOf door, DoorMode.ofCode mode with
  | some d, some m =>
    let e := s.doors[d]
    let s1 := lapseGrant d .mode (modDoor d (fun e => { e with entry := { e.entry with mode := m } }) s)
    let s2 :=
      match e.state with
      | .secure | .released | .free => recompute d s1
      | .open_ | .held | .forced => if m = .free then recompute d s1 else s1
      | .fault | .egress | .inactive => s1
    endRequest .done (some (bit e.grant.isSome)) none s2
  | _, _ => endRequest .range none none s

/-- The seconds of a DOOR_PULSE: 0 means the door's release time, any other is clamped (R97). -/
def pulseSeconds (e : Door) (duration : Nat) : Nat :=
  if duration = 0 then e.entry.release else min 60 (max 1 duration)

/-- The take of a DOOR_PULSE (R97). In RELEASED the timer starts again at R97's duration, where R89 says
the full release time (DESIGN CHOICE, notes/assumptions/36.md). -/
def takeDoorPulse (door duration : Nat) (s : State) : State :=
  match doorOf door with
  | none => endRequest .range none none s
  | some d =>
    let e := s.doors[d]
    let t := pulseSeconds e duration
    if e.entry.mode = .locked then endRequest .doorLocked none none s
    else match e.state with
      | .fault => endRequest .doorFault none none s
      | .secure =>
        endRequest .done (some 1) none (modDoor d (releaseFor s.mode.rehearsal t) s)
      | .released =>
        endRequest .done (some 1) none (modDoor d (fun e => { e with release := some (t * 16) }) s)
      | .open_ | .held | .forced | .free | .egress | .inactive => endRequest .done (some 0) none s

/-- The take of a CLEAR_FAULT (R100). -/
def takeClearFault (door : Nat) (s : State) : State :=
  match doorOf door with
  | none => endRequest .range none none s
  | some d =>
    if fireActive s then endRequest .fireActive none none s
    else if s.doors[d].mark = false then endRequest .done (some 0) none s
    else
      let s1 := modDoor d (endWindow s.mode.rehearsal) s
      if s.doors[d].entry.supervised then
        setStage .checking (modDoor d (fun e =>
          { e with settle := some Config.settleBeats, disagree := 0 }) s1)
      else faultCleared d s1

end Sys2Proof.Machine
end

