-- ==== Sys2Proof/Machine/Bells.lean ====
section
/-! DEFINITION. The bell scheduler (chapter 8): patterns, soundings, the pass time H, step notices,
evacuation and RING. -/

namespace Sys2Proof.Machine

/-- The circuits in ascending order. -/
def allCircuits : List CircuitNo := [0, 1, 2, 3, 4, 5, 6, 7]

/-- Applies `f` to every circuit of a mask. -/
def forCircuits (mask : BitVec 8) (f : Circuit → Circuit) (s : State) : State :=
  allCircuits.foldl (fun s c => if mask.getLsbD c.val then modCircuit c f s else s) s

/-- The length of a sounding in beats (R144). -/
def soundingBeats (p : Pattern) (seconds : Nat) : Nat :=
  match p with
  | .triple => 80
  | .steady | .pulsed => seconds * 16

/-- A sounding acts on a circuit (R143): an EVACUATE circuit is never replaced. -/
def Circuit.sound (p : Pattern) (seconds : Nat) : Circuit → Circuit
  | .evacuate n => .evacuate n
  | .idle | .sounding .. => .sounding p (soundingBeats p seconds) (soundingBeats p seconds)

/-- The output of a circuit (R144, R148), off in every state during CLEARING. -/
def circuitOutput (s : State) (c : CircuitNo) : Bool :=
  s.regs.run != .clearing &&
  match s.bells.circuits[c] with
  | .idle => false
  | .sounding .steady _ left => left != 0
  | .sounding _ total left => left != 0 && (total - left) / 16 % 2 == 0
  | .evacuate p => p < 48 && p / 8 % 2 == 0

/-- Plan entries and RING sound (R142, R147, R149). -/
def bellsSound (s : State) : Bool := gatesRun s && !s.mode.bellsOff && !s.mode.rehearsal

/-- A plan entry sounds on the circuits of its mask. -/
def soundEntry (e : BellEntry) (s : State) : State :=
  forCircuits e.circuits (Circuit.sound e.pattern e.duration) s

/-- The day type of the entry's day is in its mask (R140). -/
def entryOnDay (cal : Calendar) (day : Nat) (e : BellEntry) : Bool := e.days.getLsbD (dayType cal day)

/-- A plan entry is reached (R142): it sounds, or is passed. -/
def reachEntry (day : Nat) (e : BellEntry) (s : State) : State :=
  if bellsSound s && entryOnDay s.cal day e then soundEntry e s else s

/-- The first of the entries that counting has reached is acted on (R142). -/
def firstEntry (s : State) : State :=
  match s.bells.due with
  | (day, e) :: rest => reachEntry day e { s with bells := { s.bells with due := rest } }
  | [] => s

/-- The instant of an entry on a day (R140). -/
def instantOf (day : Nat) (e : BellEntry) : Nat := day * Config.daySeconds + e.sec

/-- Plant time counts into a plant second later than H (R141): H moves there. In RUNNING and ISOLATED the
entries at that instant are marked for BELL_ENTRY_REACHED, in table order; in any other run state they
are passed, and no entry to RUNNING sounds them (R147). -/
def countBells (sec : Nat) (s : State) : State :=
  if s.bells.passed < sec then
    { s with bells := { s.bells with
        passed := sec
        due := if gatesRun s then s.bells.due ++
            (s.bells.plan.filter fun e => instantOf (dayOf sec) e == sec).map fun e => (dayOf sec, e)
          else s.bells.due } }
  else s

/-- The pass time and the plan pointer it gives (R141): the pointer day, and the first entry whose
instant on that day is later than H; none is end of day. -/
def planPointer (b : Bells) : Nat × Option Nat :=
  (dayOf b.passed, b.plan.findIdx? fun e => b.passed < instantOf (dayOf b.passed) e)

/-- The entries whose instants lie in (H, `new`], over every day the interval covers, in ascending order
of instant and then in table order, each with its day and its entry number (R145). -/
def passedEntries (plan : List BellEntry) (h new : Nat) : List (Nat × Nat × BellEntry) :=
  (List.range (dayOf new + 1 - dayOf h)).flatMap fun k =>
    let day := dayOf h + k
    (plan.zipIdx.filter fun e => h < instantOf day e.1 && instantOf day e.1 ≤ new).map fun e =>
      (day, e.2, e.1)

/-- An entry that a step passes is skipped (R145): it would have sounded, but more than 60 s ago. -/
def stepSkips (s : State) (new : Stamp) (day : Nat) (e : BellEntry) : Bool :=
  bellsSound s && entryOnDay s.cal day e && decide (960 < beatsOf new - instantOf day e * 16)

/-- The step notice to the bell scheduler (R145, R146). -/
def stepBells (old new : Stamp) (s : State) : State :=
  if new.sec ≤ s.bells.passed then s
  else
    let entries := passedEntries s.bells.plan s.bells.passed new.sec
    let skipped := entries.filter fun e => stepSkips s new e.1 e.2.2
    let s1 := (entries.filter fun e => !stepSkips s new e.1 e.2.2).foldl
      (fun s e => reachEntry e.1 e.2.2 s) s
    let s2 := { s1 with bells := { s1.bells with passed := new.sec } }
    match skipped.head?, skipped.getLast? with
    | some x, some y =>
      report (.bellSkipped old.sec (min 65535 skipped.length) x.1 x.2.1 y.1 y.2.1) s2
    | _, _ => s2

/-- A beat end at a circuit (R143, R148). -/
def Circuit.beat : Circuit → Circuit
  | .idle => .idle
  | .sounding p total left => .sounding p total (left - 1)
  | .evacuate p => .evacuate ((p + 1) % 64)

/-- The end of a sounding whose beats have run out (R143). -/
def Circuit.ended : Circuit → Circuit
  | .idle => .idle
  | .sounding p total left => if left = 0 then .idle else .sounding p total left
  | .evacuate p => .evacuate p

/-- HALT at a circuit (R147). -/
def Circuit.silence : Circuit → Circuit
  | .sounding .. => .idle
  | .idle => .idle
  | .evacuate p => .evacuate p

/-- The start order of evacuation at a circuit of the mask (R148). -/
def Circuit.startEvac : Circuit → Circuit
  | .evacuate p => .evacuate p
  | .idle | .sounding .. => .evacuate 0

/-- The stop order of evacuation at a circuit (R148). -/
def Circuit.stopEvac : Circuit → Circuit
  | .evacuate _ => .idle
  | .idle => .idle
  | .sounding p total left => .sounding p total left

/-- Applies `f` to every circuit. -/
def mapCircuits (f : Circuit → Circuit) (s : State) : State :=
  { s with bells := { s.bells with circuits := s.bells.circuits.map f } }

/-- HALT at the scheduler (R147): every sounding ends, and an entry reached and not yet acted on is
passed. -/
def haltBells (s : State) : State :=
  mapCircuits Circuit.silence { s with bells := { s.bells with due := [] } }

/-- The circuit is in EVACUATE. -/
def Circuit.isEvac : Circuit → Bool
  | .evacuate _ => true
  | .idle | .sounding .. => false

/-- The circuits of a mask that take a RING (R149). -/
def ringTakers (mask : BitVec 8) (s : State) : List CircuitNo :=
  if bellsSound s then
    allCircuits.filter fun c => mask.getLsbD c.val && !s.bells.circuits[c].isEvac
  else []

/-- The take of a RING (R149). -/
def takeRing (mask : BitVec 8) (pattern duration : Nat) (s : State) : State :=
  match Pattern.ofCode pattern with
  | none => endRequest .range none none s
  | some p =>
    let seconds := min 30 (max 1 duration)
    let takers := ringTakers mask s
    let s1 := takers.foldl (fun s c => modCircuit c (Circuit.sound p seconds) s) s
    endRequest .done (some takers.length) none s1

end Sys2Proof.Machine
end

