-- ==== Sys2Proof/Machine/Clock.lean ====
section
/-! DEFINITION. The plant clock unit (1.1 to 1.6): the length of a beat, counting, steps, sync marks,
and SET_TIME. -/

namespace Sys2Proof.Machine

/-! ### The time base (R2, R8) -/

/-- The rate trim of the current beat in cycles (R2). -/
def rateTrim (c : Clock) : Int :=
  if (c.block : Int) < c.rho then 1 else if (c.block : Int) < -c.rho then -1 else 0

/-- The slew share of the current beat in cycles (R8). -/
def slewShare (c : Clock) : Int :=
  match c.slew with
  | none => 0
  | some w =>
    if w.left = 0 then 0
    else
      let n : Int := (w.base : Int) + (if w.extra = 0 then 0 else 1)
      if w.lengthen then n else -n

/-- The length of the current beat in reference cycles (R2). -/
def beatCycles (c : Clock) : Int := 2048 + rateTrim c + slewShare c

/-- A slewed beat has ended (R8). With no beat left the slew rests until SLEW_END. -/
def Slew.beat (w : Slew) : Slew := { w with left := w.left - 1, extra := w.extra - 1 }

/-- The slew that removes a deviation of 3 to 32 beats (R8). -/
def slewFor (d : Int) : Slew :=
  let c := d.natAbs * 2048
  { lengthen := decide (0 < d), base := c / Config.slewBeats, left := Config.slewBeats,
    extra := c % Config.slewBeats }

/-- The count holds at the end of its range (R4). -/
def atEnd (c : Clock) : Bool := c.now.sec == Config.lastSecond && c.now.beat == 15

/-- The time one beat later. -/
def nextBeat (t : Stamp) : Stamp := if t.beat = 15 then ⟨t.sec + 1, 0⟩ else ⟨t.sec, t.beat + 1⟩

/-- A midnight into a day prunes the exception list (R20). -/
def midnight (day : Nat) (s : State) : State :=
  { s with cal := { s.cal with exceptions := pruneExceptions day s.cal.exceptions } }

/-- Plant time counts one beat on (R1): a new second may be a midnight (R20), moves H (R141), and
reaches deadlines (R111). -/
def countBeat (s : State) : State :=
  if s.clock.valid && !atEnd s.clock then
    let t := nextBeat s.clock.now
    let s1 := { s with clock := { s.clock with now := t } }
    if t.beat = 0 then
      let s2 := if t.sec % Config.daySeconds = 0 then midnight (dayOf t.sec) s1 else s1
      markDeadlines t.sec (countBells t.sec s2)
    else s1
  else s

/-- The time base at a beat end: block index, slew and holdover timer (R2, R8, R13). -/
def Clock.beat (c : Clock) : Clock :=
  { c with
    block := (c.block + 1) % 4096
    slew := c.slew.map Slew.beat
    holdover := c.holdover - 1 }

/-- A beat end at a reader line: its supervision timer counts while ONLINE (R48). -/
def Line.beat (l : Line) : Line := { l with timer := tick l.timer }

/-- The end of a beat (R1). -/
def beatEnds (readbacks : DoorPins) (s : State) : State :=
  if s.regs.run = .clearing then s
  else
    let s1 := countBeat { s with clock := s.clock.beat }
    mapCircuits Circuit.beat { s1 with
      lines := s1.lines.map Line.beat
      doors := s1.doors.mapFinIdx fun i e _ => e.beat (readbacks.getLsbD i) }

/-! ### Steps (R11) -/

/-- A target beyond the end of range is replaced by it (R4). -/
def clampTime (t : Stamp) : Stamp := if Config.lastSecond < t.sec then ⟨Config.lastSecond, 15⟩ else t

/-- A step of plant time (R11): any slew is cancelled, the time set with its midnight, the CLOCK_STEP
record made, the event raised, and the two notices given. R11 gives the notices no order; the bell
scheduler acts on its notice before the deadline logic (DESIGN CHOICE, notes/assumptions/31.md). -/
def stepTo (target : Stamp) (cause : StepCause) (s : State) : State :=
  let old := s.clock.now
  let new := clampTime target
  let s1 := { s with clock := { s.clock with now := new, slew := none } }
  let s2 := if dayOf old.sec < dayOf new.sec then midnight (dayOf new.sec) s1 else s1
  let s3 := raise .clockStep (report (.clockStep (some old) cause) s2)
  stepDeadlines old new (stepBells old new s3)

/-! ### Sync (R6 to R14) -/

/-- The sync state changes (R12, R14): a SYNC_STATE record and the SYNC_CHANGE event, when it is a
change. -/
def changeSync (st : SyncState) (s : State) : State :=
  if s.clock.sync = st then s
  else
    raise .syncChange (report (.syncState s.clock.sync st s.clock.rho s.clock.lastDev)
      { s with clock := { s.clock with sync := st } })

/-- The deviation at a position (R7). -/
def deviation (t : Stamp) : Int :=
  let p : Int := ((t.sec % 60) * 16 + t.beat : Nat)
  if p < 480 then p else p - 960

/-- ρ after a mark of deviation `d` (R7), within ±255 (R3). -/
def nudgeRho (rho d : Int) : Int :=
  if 0 < d then min 255 (rho + 1) else if d < 0 then max (-255) (rho - 1) else rho

/-- The target of a stepping mark (R10). -/
def markTarget (t : Stamp) (d : Int) : Stamp :=
  if 0 ≤ d then ⟨t.sec / 60 * 60, 0⟩ else ⟨t.sec / 60 * 60 + 60, 0⟩

/-- A mark is processed (R7), from the position taken at its leading edge. The SYNC_STATE record carries
ρ and d as the mark leaves them (DESIGN CHOICE, notes/assumptions/34.md). -/
def processMark (pos : Stamp) (s : State) : State :=
  let d := deviation pos
  let s1 := changeSync .locked { s with clock := { s.clock with
    slew := none
    rho := nudgeRho s.clock.rho d
    lastDev := d
    holdover := Config.holdoverBeats } }
  if d.natAbs ≤ 2 then s1
  else if d.natAbs ≤ 32 then { s1 with clock := { s1.clock with slew := some (slewFor d) } }
  else stepTo (markTarget pos d) .sync s1

/-- An accepted mark is processed (R6). -/
def marksProcessed (s : State) : Bool :=
  (s.regs.run == .halted || gatesRun s) && s.clock.valid && s.mode.syncEnable && !atEnd s.clock

/-- A leading edge of the sync pulse takes the position of plant time (R6). `quiet` tells that the input
had been seen deasserted for 10 ms. -/
def markEdge (quiet : Bool) (s : State) : State :=
  { s with clock := { s.clock with
      edge := some s.clock.now, markReady := s.clock.markReady || quiet } }

/-- The last of the slewed beats has ended (R8). -/
def endSlew (s : State) : State :=
  match s.clock.slew with
  | some w => if w.left = 0 then { s with clock := { s.clock with slew := none } } else s
  | none => s

/-- The holdover timer has reached 0 in LOCKED (R13). -/
def endHoldover (s : State) : State :=
  if s.clock.sync = .locked ∧ s.clock.holdover = 0 then changeSync .holdover s else s

/-- A pulse that has stayed asserted for 10 ms is accepted as a mark (R6), when its leading edge was
seen and the input had been seen deasserted since the mark before; an accepted mark is ignored while
the clock is invalid, SYNC_ENABLE is clear or the count holds at its end, and in CLEARING and LOADING
(11.2). A SET_TIME taken between the edge and the acceptance leaves the position of the edge as it was
(DESIGN CHOICE, notes/assumptions/33.md). -/
def acceptMark (s : State) : State :=
  match s.clock.edge with
  | none => s
  | some pos =>
    if s.clock.markReady = false then s
    else
      let s1 := { s with clock := { s.clock with edge := none, markReady := false } }
      if marksProcessed s then processMark pos s1 else s1

/-- The take of a SET_TIME (R15). -/
def takeSetTime (sec : Nat) (s : State) : State :=
  if Config.lastSecond < sec then endRequest .range none none s
  else if s.clock.sync = .locked then endRequest .syncOwns none none s
  else endRequest .done none none (stepTo ⟨sec, 0⟩ .setTime s)

/-- The take of a CAL_SET (R18). -/
def takeCalSet (day type : Nat) (s : State) : State :=
  let l := s.cal.exceptions
  if Config.lastDay < day ∨ 7 < type then endRequest .range none none s
  else if (exceptionType s.cal day).isNone ∧ 64 ≤ l.length then endRequest .noRoom none none s
  else endRequest .done none none
    { s with cal := { s.cal with exceptions := putException day type l } }

/-- The take of a CAL_CLEAR (R19). -/
def takeCalClear (day : Nat) (s : State) : State :=
  if Config.lastDay < day then endRequest .range none none s
  else if (exceptionType s.cal day).isNone then endRequest .notFound none none s
  else endRequest .done none none
    { s with cal := { s.cal with exceptions := dropException day s.cal.exceptions } }

end Sys2Proof.Machine
end

