-- ==== Sys2Proof/Machine/ClockCommands.lean ====
section
/-! DEFINITION. The meanings of the plant clock unit's commands (chapter 1). An expiry that does not
stand has no effect (notes/assumptions/6.md). -/

namespace Sys2Proof.Machine

/-- BEAT_END (R1). -/
def execBeatEnd (readbacks : DoorPins) (s : State) : Host.Outcome State Fault Refusal :=
  .next (beatEnds readbacks s)

/-- SLEW_END (R8). -/
def execSlewEnd (s : State) : Host.Outcome State Fault Refusal := .next (endSlew s)

/-- SYNC_MARK (R7). -/
def execSyncMark (s : State) : Host.Outcome State Fault Refusal := .next (acceptMark s)

/-- HOLDOVER_EXPIRY (R13). -/
def execHoldoverExpiry (s : State) : Host.Outcome State Fault Refusal := .next (endHoldover s)

/-- SYNC_MARK_LEADING_EDGE (R6). -/
def execSyncMarkLeadingEdge (quiet : Bool) (s : State) : Host.Outcome State Fault Refusal :=
  .next (markEdge quiet s)

end Sys2Proof.Machine
end

