-- ==== Sys2Proof/Machine/Operands.lean ====
section
/-! DEFINITION. The structures that the part reads from shared RAM, by the layouts of R178: the work
slot of a request, the setup block, and the table entries. A number is `readLe` of its bytes; a yes/no
byte is set when it is not 0 (notes/assumptions/15.md). -/

namespace Sys2Proof.Machine

/-- The number in one byte. -/
def readByte (m : Memory) (base : Word) (off : Nat) : Nat := (readCell m (addrAt base off)).toNat

/-- A yes/no byte. -/
def readFlag (m : Memory) (base : Word) (off : Nat) : Bool := readByte m base off != 0

/-- An address field. -/
def readAddr (m : Memory) (base : Word) (off : Nat) : Word := BitVec.ofNat 32 (readLe m base off 4)

/-! ### Work slots -/

/-- The ENROL fields from the assignment kind on, for a slot. -/
def readWorkerFields (m : Memory) (base : Word) (off slot : Nat) : EnrolParams :=
  { slot := slot, assignKind := readByte m base off, assignNo := readByte m base (off + 1),
    badge := readLe m base (off + 2) 4, issue := readByte m base (off + 6),
    rule := readByte m base (off + 7), grade := readByte m base (off + 8),
    profile := readByte m base (off + 9), clearance := readByte m base (off + 10),
    suspended := readByte m base (off + 11) % 2 == 1,
    unschedOk := readByte m base (off + 11) / 2 % 2 == 1 }

/-- The ENROL parameters, and a roster entry. -/
def readEnrol (m : Memory) (base : Word) (off : Nat) : EnrolParams :=
  readWorkerFields m base (off + 2) (readLe m base off 2)

/-- The AMEND parameters. -/
def readAmend (m : Memory) (base : Word) (off : Nat) : AmendParams :=
  { mask := BitVec.ofNat 16 (readLe m base (off + 2) 2),
    vals := readWorkerFields m base (off + 4) (readLe m base off 2) }

/-- The output area of a slot at `off`. -/
def readOut (m : Memory) (base : Word) (off : Nat) : OutArea :=
  { addr := readAddr m base (off + 12), cap := readLe m base (off + 16) 2 }

/-- The body of the request in the slot at `off`; none for a kind that is not in the request kind table. -/
def readRequest (m : Memory) (base : Word) (off : Nat) : Option Req :=
  let p := off + 20
  let b := fun i => readByte m base (p + i)
  let h := fun i => readLe m base (p + i) 2
  match readByte m base (off + 1) with
  | 0x01 => some (.enrol (readEnrol m base p))
  | 0x02 => some (.amend (readAmend m base p))
  | 0x03 => some (.withdraw (h 0) (readFlag m base (p + 2)) (readOut m base off))
  | 0x04 => some (.relocate (h 0) (b 2))
  | 0x05 => some .forgive
  | 0x08 => some (.statement (h 0) (h 2) (readFlag m base (p + 4)) (readOut m base off))
  | 0x09 => some (.readStatus (readOut m base off))
  | 0x10 => some (.setTime (readLe m base p 4))
  | 0x11 => some (.calSet (h 0) (b 2))
  | 0x12 => some (.calClear (h 0))
  | 0x18 => some (.zoneSet (b 0) (readFlag m base (p + 1)) (b 2) (h 4))
  | 0x20 => some (.doorMode (b 0) (b 1))
  | 0x21 => some (.doorPulse (b 0) (b 1))
  | 0x22 => some (.clearFault (b 0))
  | 0x28 => some (.ring (BitVec.ofNat 8 (b 0)) (b 1) (b 2))
  | 0x30 => some (.inject ⟨b 0, b 1, b 2, b 3, h 4, readLe m base (p + 6) 4⟩)
  | _ => none

/-- The NOTIFY flag of the slot at `off`. -/
def readNotify (m : Memory) (base : Word) (off : Nat) : Bool := readByte m base (off + 2) % 2 == 1

/-! ### The setup block -/

/-- The setup block as the host wrote it. -/
structure SetupBlock where
  mode : Nat
  site : Nat
  capacity : Nat
  time : Nat
  weekday : Nat
  evacMask : Nat
  poll : Nat
  workLog : Nat
  openLimit : Nat
  nStart : Nat
  nEnd : Nat
  journalLog : Nat
  threshold : Nat
  musterCapacity : Nat
  workList : Word
  journal : Word
  musterArea : Word
  roster : Word
  rosterCount : Nat
  exceptionCount : Nat
  bellCount : Nat
  zone : Word
  door : Word
  reader : Word
  shift : Word
  rota : Word
  payRule : Word
  grade : Word
  dayType : Word
  week : Word
  exceptions : Word
  bellPlan : Word
deriving DecidableEq, Repr

/-- The setup block at an address. -/
def readSetup (m : Memory) (a : Word) : SetupBlock :=
  { mode := readLe m a 4 4, site := readLe m a 8 2, capacity := readLe m a 10 2,
    time := readLe m a 12 4, weekday := readByte m a 16, evacMask := readByte m a 17,
    poll := readByte m a 18, workLog := readByte m a 19, openLimit := readLe m a 20 2,
    nStart := readLe m a 22 2, nEnd := readLe m a 24 2, journalLog := readByte m a 26,
    threshold := readLe m a 28 2, musterCapacity := readLe m a 30 2,
    workList := readAddr m a 32, journal := readAddr m a 36, musterArea := readAddr m a 40,
    roster := readAddr m a 44, rosterCount := readLe m a 48 2, exceptionCount := readByte m a 50,
    bellCount := readByte m a 51, zone := readAddr m a 52, door := readAddr m a 56,
    reader := readAddr m a 60, shift := readAddr m a 64, rota := readAddr m a 68,
    payRule := readAddr m a 72, grade := readAddr m a 76, dayType := readAddr m a 80,
    week := readAddr m a 84, exceptions := readAddr m a 88, bellPlan := readAddr m a 92 }

/-- ROSTER_RELOAD of the mode word. -/
def SetupBlock.reload (b : SetupBlock) : Bool := b.mode / 8 % 2 == 1

/-- The flags of the mode word that come into force (R6). -/
def SetupBlock.modeWord (b : SetupBlock) : ModeWord :=
  { rehearsal := b.mode % 2 == 1, bellsOff := b.mode / 2 % 2 == 1, syncEnable := b.mode / 4 % 2 == 1 }

/-- A value clamped into a range. -/
def clamp (lo hi n : Nat) : Nat := min hi (max lo n)

/-- The setup values that come into force, with their treatments (R163). -/
def SetupBlock.inForce (b : SetupBlock) : Setup :=
  { site := b.site, openLimit := clamp 30 960 b.openLimit, workList := b.workList,
    workLog := b.workLog, journal := b.journal, journalLog := b.journalLog,
    threshold := clamp 1 (2 ^ b.journalLog) b.threshold, poll := max 1 b.poll,
    musterArea := b.musterArea, musterCapacity := b.musterCapacity }

/-! ### Table entries -/

/-- HOLIDAY of day type `k`. -/
def readDayType (m : Memory) (a : Word) (k : Nat) : Bool := readByte m a k % 2 == 1

/-- The day type a loaded byte gives; above 7 a free value (notes/assumptions/5.md). -/
def dayTypeOf (n : Nat) : Nat := if n ≤ 7 then n else (Config.dayTypeAbove7 n).val

/-- Week pattern entry `k`. -/
def readWeek (m : Memory) (a : Word) (k : Nat) : Nat := dayTypeOf (readByte m a k)

/-- The day of exception entry `k`. -/
def readExceptionDay (m : Memory) (a : Word) (k : Nat) : Nat := readLe m a (4 * k) 2

/-- Exception entry `k` (R17). -/
def readException (m : Memory) (a : Word) (k : Nat) : Nat × Nat :=
  (readExceptionDay m a k, dayTypeOf (readByte m a (4 * k + 2)))

/-- Shift entry `k`, 0 for shift 1 (R21). -/
def readShift (m : Memory) (a : Word) (k : Nat) : Shift :=
  { valid := readFlag m a (8 * k), start := readLe m a (8 * k + 2) 2, length := readLe m a (8 * k + 4) 2 }

/-- The cycle length of rota entry `k`. -/
def readCycle (m : Memory) (a : Word) (k : Nat) : Nat := readByte m a (32 * k)

/-- Rota entry `k`, 0 for crew 1, with its places from 0 to L − 1 only (R21). -/
def readCrew (m : Memory) (a : Word) (k : Nat) : Crew :=
  { cycle := readCycle m a k, anchor := readLe m a (32 * k + 2) 2,
    rota := (List.range (readCycle m a k)).map fun i => readByte m a (32 * k + 4 + i) }

/-- Pay rule `k`, with its clamps (R119). -/
def readPayRule (m : Memory) (a : Word) (k : Nat) : PayRule :=
  let o := 16 * k
  let b := fun i => readByte m a (o + i)
  { admitMin := min 240 (b 0), graceLate := min 30 (b 1), graceOut := min 30 (b 2), quantum := b 3,
    rounding := Rounding.ofCode (b 4), breakMin := min 90 (b 5), breakAt := min 960 (readLe m a (o + 6) 2),
    overtimeAt := clamp 60 1440 (readLe m a (o + 8) 2), nightMul := clamp 8 32 (b 10),
    otMul := clamp 8 32 (b 11), holMul := clamp 8 32 (b 12) }

/-- Grade `k` (R120). -/
def readGrade (m : Memory) (a : Word) (k : Nat) : Nat := readLe m a (2 * k) 2

/-- Zone entry `k`, 0 for zone 1, with no one in it (R65). -/
def readZone (m : Memory) (a : Word) (k : Nat) (z : Zone) : Zone :=
  let o := 8 * k
  let c := readByte m a (o + 2)
  { z with
    present := readFlag m a o
    type := ZoneType.ofCode (readByte m a (o + 1))
    ceiling := if 3 < c then 0 else c
    capacity := min 4095 (readLe m a (o + 4) 2) }

/-- A zone number of a byte; above 15 there is no such zone. -/
def zoneOf (n : Nat) : Option ZoneNo := if h : n < 16 then some ⟨n, h⟩ else none

/-- Door entry `k` (R85); an entry with a zone above 15 fails the load and is never put in force. -/
def readDoor (m : Memory) (a : Word) (k : Nat) : DoorEntry :=
  let o := 20 * k
  let b := fun i => readByte m a (o + i)
  { fromZone := (zoneOf (b 0)).getD 0, toZone := (zoneOf (b 1)).getD 0,
    mode := (DoorMode.ofCode (b 2)).getD .locked, apb := Apb.ofCode (b 3), clocking := readFlag m a (o + 4),
    release := clamp 1 60 (b 5), heldLimit := clamp 5 255 (b 6), polarity := Polarity.ofCode (b 7),
    rexEnable := readFlag m a (o + 8), supervised := readFlag m a (o + 9),
    profiles := BitVec.ofNat 64 (readLe m a (o + 12) 8) }

/-- The kind of a reader descriptor's two bytes (R51): an undefined kind or role is UNUSED. -/
def readerKindOf (kind n : Nat) : ReaderKind :=
  match kind with
  | 1 => if h : n < 12 then .doorEntry ⟨n, h⟩ else .unused
  | 2 => if h : n < 12 then .doorExit ⟨n, h⟩ else .unused
  | 3 => (match Role.ofCode n with
    | some r => .clockOnly r
    | none => .unused)
  | 4 => (match zoneOf n with
    | some z => .musterPoint z
    | none => .unused)
  | _ => .unused

/-- Reader descriptor `k` (R51). -/
def readReader (m : Memory) (a : Word) (k : Nat) : ReaderDesc :=
  { kind := readerKindOf (readByte m a (4 * k)) (readByte m a (4 * k + 1)),
    level := min 3 (readByte m a (4 * k + 2)) }

/-- The second of day of bell plan entry `k`. -/
def readBellSec (m : Memory) (a : Word) (k : Nat) : Nat := readLe m a (8 * k) 4

/-- Bell plan entry `k` (R139). -/
def readBell (m : Memory) (a : Word) (k : Nat) : BellEntry :=
  let o := 8 * k
  { sec := readBellSec m a k, days := BitVec.ofNat 8 (readByte m a (o + 4)),
    circuits := BitVec.ofNat 8 (readByte m a (o + 5)),
    pattern := (Pattern.ofCode (readByte m a (o + 6))).getD .steady,
    duration := clamp 1 30 (readByte m a (o + 7)) }

end Sys2Proof.Machine
end

