-- ==== Sys2Proof/Machine/Fire.lean ====
section
/-! DEFINITION. The fire unit (chapter 9): assertion, deassertion, acknowledgement, and the muster
write. -/

namespace Sys2Proof.Machine

/-- The captured fire time, where one is captured. -/
def capturedTime (s : State) : Stamp := s.fire.captured.getD ⟨0, 0⟩

/-- An accepted assertion of FIRE_IN (R153); in ALARM none can arise. In CLEARING its record and event
wait for clear done. -/
def assertFire (s : State) : State :=
  if s.fire.state = .alarm then s
  else
    let again := s.fire.state == .hold
    let t : Stamp := if s.clock.valid then s.clock.now else ⟨0, 0⟩
    let lapses := grantCount s
    let s1 := { s with fire := { s.fire with
      state := .alarm, captured := some t, musterPending := true } }
    let s2 :=
      if s.regs.run = .clearing then
        { s1 with fire := { s1.fire with deferred := some (t, lapses, again) } }
      else raise .fireOn (handOver false t (.fireOn s.regs.run lapses again) s1)
    let s3 := egressDoors s2
    let s4 := if checkRuns s3 then endRequest .fireActive none none s3 else s3
    forCircuits s.fire.evacMask Circuit.startEvac s4

/-- An accepted deassertion of FIRE_IN (R154), which can arise in ALARM only. -/
def clearFire (s : State) : State :=
  if s.fire.state = .alarm then
    let s1 := { s with fire := { s.fire with state := .hold } }
    mapCircuits Circuit.stopEvac (raise .fireOff (report (.fireOff (capturedTime s)) s1))
  else s

/-- Every in-use record's muster flag is cleared. -/
def clearMuster (s : State) : State :=
  setWorkers s (s.table.workers.map fun e => (e.1, { e.2 with muster := false }))

/-- The muster flags that are set. -/
def musterCount (s : State) : Nat := s.table.workers.countP fun e => e.2.muster

/-- ACKFIRE (R155): taken in every run state except CLEARING, accepted only in HOLD. -/
def ackFire (s : State) : State :=
  if s.regs.run ≠ .clearing ∧ s.fire.state = .hold then
    let s1 := recomputeDoors { s with fire := { s.fire with state := .clear } }
    let s2 := clearMuster { s1 with fire := { s1.fire with musterPending := false } }
    report (.fireAck (capturedTime s) (musterCount s) s.fire.musterPending) s2
  else s

/-! ### The muster write (R157, R158) -/

/-- The inside zones in ascending order. -/
def insideZones : List ZoneNo := [1, 2, 3, 4, 5, 6, 7, 8, 9, 10, 11, 12, 13, 14, 15]

/-- The snapshot of the workers inside, by zone and then by slot (R158). -/
def musterSnapshot (s : State) : List MusterEntry :=
  insideZones.flatMap fun z =>
    (s.table.workers.filter fun e => e.2.location == z).map fun e =>
      { slot := e.1, zone := z, on := e.2.interval.isSome, flagged := e.2.muster,
        badge := e.2.badge }

/-- A pending muster list begins to be written (R157), at the first moment at which the run state is
RUNNING and no muster write runs; without an area it is complete at once. -/
def startMuster (s : State) : State :=
  match s.link.setup with
  | some su =>
    if s.fire.musterPending = true ∧ s.regs.run = .running ∧ s.link.muster = none then
      let s1 := { s with fire := { s.fire with musterPending := false } }
      let entries := musterSnapshot s
      if su.musterArea = 0 ∨ su.musterCapacity = 0 then
        report (.musterWritten (capturedTime s) 0 entries.length false true) s1
      else
        { s1 with link := { s1.link with
          muster := some ⟨entries, s.clock.now, capturedTime s, su.musterArea, su.musterCapacity, 0⟩ } }
    else s
  | none => s

/-- Writes the muster entries listed, from entry `i` on, each in one access; gives the position of the
next entry, and whether all were answered well. -/
def writeMuster (area : Word) : Nat → List MusterEntry → State → Nat × Bool × State
  | i, [], s => (i, true, s)
  | i, e :: rest, s =>
    match linkWrite area (16 + 8 * i) e.bytes s with
    | (false, s1) => (i, false, s1)
    | (true, s1) => writeMuster area (i + 1) rest s1

/-- The muster write runs to its end (R158): the entries, then the header, then the MUSTER_WRITTEN
record. An error suspends it at the position of its next entry (R159). -/
def finishMuster (s : State) : State :=
  match s.link.muster with
  | some m =>
    if s.regs.run = .running then
      match writeMuster m.area m.next ((m.entries.take m.count).drop m.next) s with
      | (i, false, s1) =>
        { s1 with link := { s1.link with muster := some { m with next := i } } }
      | (i, true, s1) =>
        match linkWrite m.area 0 m.header s1 with
        | (false, s2) => { s2 with link := { s2.link with muster := some { m with next := i } } }
        | (true, s2) =>
          handOver false m.writeTime
            (.musterWritten m.captured m.count m.entries.length m.truncated false)
            { s2 with link := { s2.link with muster := none } }
    else s
  | none => s

/-- The muster entries that a write has still to write. -/
def MusterWrite.remaining (m : MusterWrite) : Nat := m.count - m.next

/-- What a muster write in progress has written by the moment of a HALT in RUNNING (R159): a FREE number
of its entries, and not its header (notes/assumptions/40.md). In ISOLATED no entry is under way. -/
def musterCut (s : State) : State :=
  match s.link.muster with
  | some m =>
    if s.regs.run = .running then
      let n := (Config.freeWord s.link.draws 4).toNat % (m.remaining + 1)
      (writeMuster m.area m.next (((m.entries.take m.count).drop m.next).take n)
        { s with link := { s.link with draws := s.link.draws + 1 } }).2.2
    else s
  | none => s

/-- HALT at the fire unit (R159): a muster write is abandoned, and its list is pending again while fire
is active. -/
def haltMuster (s : State) : State :=
  match s.link.muster with
  | some _ =>
    let s1 := { s with link := { s.link with muster := none } }
    if fireActive s then { s1 with fire := { s1.fire with musterPending := true } } else s1
  | none => s

end Sys2Proof.Machine
end

