-- ==== Sys2Proof/Machine/Presentation.lean ====
section
/-! DEFINITION. Reader lines and the presentation check (chapters 3 and 4): frames, the fourteen steps,
answers, grants, passages at FREE doors, punches at CLOCK_ONLY readers, roll call, and INJECT. -/

namespace Sys2Proof.Machine

/-! ### Frames (R44 to R49) -/

/-- The kind of a frame that is valid (R45). -/
def judgeFrame (b : List Byte) (framing : Bool) : Option FrameKind :=
  match FrameKind.ofCode (b.headD 0).toNat with
  | none => none
  | some k =>
    if !framing && b.length == k.length && checkByte b.dropLast == b.getLastD 0 &&
        (k != .present || decide ((b.getD 7 0).toNat ≤ 15)) then some k
    else none

/-- The presentation of a valid PRESENT frame (R46, R178). -/
def framePresentation (b : List Byte) (t : Stamp) : Presentation :=
  { site := ofLe ((b.drop 1).take 2), badge := ofLe ((b.drop 3).take 4), issue := (b.getD 7 0).toNat,
    time := t }

/-- A valid frame restarts supervision and brings an OFFLINE line ONLINE (R48). -/
def lineAlive (l : LineNo) (k : FrameKind) (s : State) : State :=
  let was := s.lines[l].online
  let s1 := modLine l (fun e =>
    { e with online := true, timer := some Config.supervisionBeats }) s
  if was then s1 else report (.readerOnline l k) s1

/-- The tamper flag at a valid frame (R49). -/
def lineTamper (l : LineNo) (k : FrameKind) (s : State) : State :=
  if s.lines[l].tamper = decide (k = .tamper) then s
  else report (.readerTamper l (k == .tamper))
    (modLine l (fun e => { e with tamper := k == .tamper }) s)

/-- A frame ends on a line (R44, R45); in CLEARING every received byte is discarded (R50). -/
def frameEnds (l : LineNo) (b : List Byte) (framing : Bool) (t : Stamp) (s : State) : State :=
  if s.regs.run = .clearing then s
  else match judgeFrame b framing with
    | none => modLine l (fun e => { e with bad := satAdd 65535 e.bad 1 }) s
    | some k =>
      let s1 := lineTamper l k (lineAlive l k s)
      if k = .present then
        modLine l (fun e => { e with waiting := e.waiting ++ [framePresentation b t] }) s1
      else s1

/-- A line's supervision timer has reached 0 (R48). -/
def lineEnds (l : LineNo) (s : State) : State :=
  if s.lines[l].online = true ∧ s.lines[l].timer = some 0 then
    report (.readerOffline l s.lines[l].bad)
      (modLine l (fun e => { e with online := false, timer := none }) s)
  else s

/-! ### The presentation check (R53 to R60) -/

/-- How the check ends. -/
inductive Verdict where
  /-- Step 1: AMBER OUT_OF_SERVICE. -/
  | outOfService
  /-- Step 2: AMBER EGRESS at a door reader in fire. -/
  | egress
  /-- Step 2: AMBER at a MUSTER_POINT reader outside fire. -/
  | noFire
  /-- Step 3: silent. -/
  | silent
  /-- Step 4: AMBER HOLD. -/
  | hold
  /-- Step 9: AMBER BUSY. -/
  | busy
  /-- A refusal with its reason, and the worker's slot from step 7 on. -/
  | refused (slot : Option Nat) (reason : Reason)
  /-- Step 14 at a door reader or CLOCK_ONLY reader. -/
  | accepted (slot : Nat) (kind : PunchKind) (apbSoft : Bool)
  /-- The roll-call path, past step 8. -/
  | rollCall (slot : Nat) (zone : ZoneNo)
deriving DecidableEq, Repr

/-- The door of a door reader, and whether it is an entry reader (R52). -/
def ReaderKind.door : ReaderKind → Option (DoorNo × Bool)
  | .doorEntry d => some (d, true)
  | .doorExit d => some (d, false)
  | .unused | .clockOnly _ | .musterPoint _ => none

/-- The source zone of a door reader (R52). -/
def sourceZone (e : DoorEntry) (inward : Bool) : ZoneNo := if inward then e.fromZone else e.toZone

/-- The target zone of a door reader (R52). -/
def targetZone (e : DoorEntry) (inward : Bool) : ZoneNo := if inward then e.toZone else e.fromZone

/-- A clocking door (R52). -/
def DoorEntry.isClocking (e : DoorEntry) : Bool := e.fromZone == 0 && e.clocking

/-- The hold-off memory of a line holds the presentation off (R55). -/
def heldOff (m : Option (Nat × Stamp)) (p : Presentation) : Bool :=
  match m with
  | some (badge, t) =>
    badge == p.badge && decide (beatsOf t ≤ beatsOf p.time) &&
      decide (beatsOf p.time < beatsOf t + Config.holdOffBeats)
  | none => false

/-- Step 9 at a door, past the worker's own grant (R58). -/
def doorGuard (e : Door) : Option (Option Reason) :=
  if e.entry.mode = .locked then some (some .doorLocked)
  else if e.state = .fault then some (some .doorFault)
  else if (e.state = .secure ∧ e.grant = none) ∨ e.state = .free then none
  else some none

/-- Step 10 (R59, R71): the first refusal of the target zone, which is not 0. -/
def zoneRefusal (z : Zone) (e : DoorEntry) (level : Nat) (w : Worker) : Option Reason :=
  if !z.present then some .zoneAbsent
  else if z.type = .closed then some .zoneClosed
  else if w.profile = 0 then some .noProfile
  else if e.profiles.getLsbD w.profile = false then some .profile
  else if z.ceiling < max w.clearance level then some .clearance
  else none

/-- Step 12 (R59, R69): the target zone is full. -/
def zoneFull (z : Zone) : Bool := z.capacity != 0 && decide (z.capacity ≤ z.occupancy + z.reserved)

/-- A clock-in attempt (R60): refused NOT_SCHEDULED when unscheduled without UNSCHEDULED_OK. -/
def clockInAttempt (s : State) (w : Worker) (t : Nat) : Except Reason PunchKind :=
  if (resolveShift s.cal w.assignment (payRule s.pay w.rule).admitMin t).isNone && !w.unschedOk then
    .error .notScheduled
  else .ok .punchIn

/-- Step 13 (R60): the punch kind, or the refusal. -/
def clockCheck (s : State) (k : ReaderKind) (w : Worker) (t : Nat) : Except Reason PunchKind :=
  let on := w.interval.isSome
  match k with
  | .doorEntry d =>
    if s.doors[d].entry.isClocking then (if on then .ok .reentry else clockInAttempt s w t)
    else .ok .passage
  | .doorExit d =>
    if s.doors[d].entry.isClocking then .ok (if on then .punchOut else .strayOut) else .ok .passage
  | .clockOnly .in_ => if on then .error .alreadyOn else clockInAttempt s w t
  | .clockOnly .out => if on then .ok .punchOut else .error .notOn
  | .clockOnly .toggle => if on then .ok .punchOut else clockInAttempt s w t
  | .unused | .musterPoint _ => .ok .passage

/-- Steps 10 to 12 at a door reader (R59): a refusal, or whether the presentation goes on APB_SOFT. -/
def doorChecks (s : State) (d : DoorNo) (inward : Bool) (level : Nat) (w : Worker) :
    Except Reason Bool :=
  let e := s.doors[d].entry
  let target := zoneAt s (targetZone e inward)
  match target.bind fun z => zoneRefusal z e level w with
  | some r => .error r
  | none =>
    let wrong := decide (w.location ≠ sourceZone e inward)
    if wrong && e.apb == .hard then .error .wrongZone
    else if target.any zoneFull then .error .zoneFull
    else .ok (wrong && e.apb == .soft)

/-- Steps 9 to 13 for an identified worker at a door reader or CLOCK_ONLY reader. -/
def gateChecks (s : State) (desc : ReaderDesc) (slot : Nat) (w : Worker) (t : Nat) : Verdict :=
  if grantNames s slot then .busy
  else match desc.kind.door with
    | none =>
      (match clockCheck s desc.kind w t with
      | .error r => .refused (some slot) r
      | .ok kind => .accepted slot kind false)
    | some (d, inward) =>
      match doorGuard s.doors[d] with
      | some (some r) => .refused (some slot) r
      | some none => .busy
      | none =>
        match doorChecks s d inward desc.level w with
        | .error r => .refused (some slot) r
        | .ok soft =>
          match clockCheck s desc.kind w t with
          | .error r => .refused (some slot) r
          | .ok kind => .accepted slot kind soft

/-- Steps 5 to 8 (R57), then the roll-call path or steps 9 to 13. -/
def identify (s : State) (desc : ReaderDesc) (p : Presentation) : Verdict :=
  if s.link.setup.elim 0 (·.site) ≠ p.site then .refused none .badSite
  else match lookupBadge p.badge s.table.index with
    | none => .refused none .unknownBadge
    | some slot =>
      match workerAt s slot with
      | none => .refused none .unknownBadge
      | some w =>
        if w.issue ≠ p.issue then .refused (some slot) .issueMismatch
        else if w.suspended then .refused (some slot) .suspended
        else match desc.kind with
          | .musterPoint z => .rollCall slot z
          | .unused | .doorEntry _ | .doorExit _ | .clockOnly _ => gateChecks s desc slot w p.time.sec

/-- The presentation check (R53): the first failing step decides. -/
def checkPresentation (s : State) (injected : Bool) (l : LineNo) (p : Presentation) : Verdict :=
  let line := s.lines[l]
  let k := line.desc.kind
  if !gatesRun s || (s.mode.rehearsal && !injected) || k == .unused then .outOfService
  else if k.door.isSome && fireActive s then .egress
  else if k.code == 4 && !fireActive s then .noFire
  else if heldOff line.holdOff p then .silent
  else if !hasRoom s then .hold
  else identify s line.desc p

/-! ### Answers and outcomes (R47, R61, R75, R82, R160) -/

/-- The GREEN duration of an accepted presentation (R47): a door's release time in 100 ms units, at most
255, or 20. -/
def greenDuration (s : State) (l : LineNo) : Nat :=
  match s.lines[l].desc.kind.door with
  | some (d, _) => if s.doors[d].state = .free then 20 else min 255 (s.doors[d].entry.release * 10)
  | none => 20

/-- The answer of a verdict (R47); silent has none. -/
def answerOf (s : State) (l : LineNo) : Verdict → Option Answer
  | .outOfService | .egress => some ⟨.amber, 50⟩
  | .noFire => some ⟨.amber, 20⟩
  | .silent => none
  | .hold | .busy => some ⟨.amber, 10⟩
  | .refused _ _ => some ⟨.red, 30⟩
  | .accepted _ _ _ => some ⟨.green, greenDuration s l⟩
  | .rollCall _ _ => some ⟨.green, 20⟩

/-- One place of the holding queue reserved for a grant (R170). -/
def reservePlace (s : State) : State :=
  let s1 := { s with link := { s.link with reserved := s.link.reserved + 1 } }
  if freePlaces s ≠ 0 ∧ freePlaces s1 = 0 then raise .holdFull s1 else s1

/-- A grant is created at a CARD door (R75, R88). -/
def createGrant (d : DoorNo) (g : Grant) (s : State) : State :=
  modDoor d (fun e => { releaseFor s.mode.rehearsal e.entry.release e with grant := some g })
    (reservePlace (addReservation g.target s))

/-- A passage at a FREE door, or a punch at a CLOCK_ONLY reader, is applied at once (R82). -/
def applyAtOnce (slot : Nat) (door : Option DoorNo) (l : LineNo) (inward : Bool) (target : ZoneNo)
    (t : Stamp) (kind : PunchKind) (apbSoft : Bool) (s : State) : State :=
  let p := passageInfo s slot door l inward target t apbSoft
  let (s1, body) := applyPunch kind p (moveWorker slot target s)
  handOver false t body s1

/-- Roll call (R160). -/
def rollCall (slot : Nat) (l : LineNo) (zone : ZoneNo) (t : Stamp) (s : State) : State :=
  match workerAt s slot with
  | none => s
  | some w =>
    handOver false t (.mustered slot w.badge l zone w.location w.interval.isSome w.muster)
      (setWorker slot { w with muster := true } s)

/-- The outcome of a verdict other than its answer (R61). -/
def outcome (l : LineNo) (p : Presentation) (v : Verdict) (s : State) : State :=
  match v with
  | .outOfService | .egress | .noFire | .silent | .busy => s
  | .hold => { s with link := { s.link with holdGap := satAdd 65535 s.link.holdGap 1 } }
  | .refused slot reason =>
    handOver false p.time
      (.refused slot p.badge p.issue l (s.lines[l].desc.kind.door.map (·.1)) reason) s
  | .accepted slot kind soft =>
    (match s.lines[l].desc.kind.door with
    | some (d, inward) =>
      let e := s.doors[d].entry
      if s.doors[d].state = .free then
        applyAtOnce slot (some d) l inward (targetZone e inward) p.time kind soft s
      else
        createGrant d
          ⟨slot, l, inward, sourceZone e inward, targetZone e inward, p.time, kind, soft⟩ s
    | none =>
      applyAtOnce slot none l false ((workerAt s slot).elim 0 (·.location)) p.time kind soft s)
  | .rollCall slot zone => rollCall slot l zone p.time s

/-- An answered presentation replaces the line's hold-off memory (R55); a line frame's answer is sent
on the line (R47), an injected one's is not (R64). -/
def answerLine (injected : Bool) (l : LineNo) (p : Presentation) (a : Answer) (s : State) : State :=
  modLine l (fun e =>
    { e with
      holdOff := some (p.badge, p.time)
      answer := if injected then e.answer else some a }) s

/-- A presentation is taken and decided whole (R46): its answer, and the state. -/
def takePresentation (injected : Bool) (l : LineNo) (p : Presentation) (s : State) :
    Option Answer × State :=
  let v := checkPresentation s injected l p
  let a := answerOf s l v
  let s1 := outcome l p v s
  (a, match a with
    | some x => answerLine injected l p x s1
    | none => s1)

/-- The next presentation of a line is `p`: the first that waits, or one handed over directly when none
waits (notes/assumptions/7.md). In CLEARING no presentation exists (R54). -/
def nextOnLine (l : LineNo) (p : Presentation) (s : State) : Bool :=
  s.regs.run != .clearing &&
  match s.lines[l].waiting with
  | [] => true
  | q :: _ => q == p

/-- A presentation of a line frame is taken (R46). -/
def takeFromLine (l : LineNo) (p : Presentation) (s : State) : State :=
  if nextOnLine l p s then
    (takePresentation false l p (modLine l (fun e => { e with waiting := e.waiting.tail }) s)).2
  else s

/-! ### INJECT (R64) -/

/-- The count field of an injected presentation: 0 for silent, else its lamp's code. -/
def answerCount : Option Answer → Nat
  | some a => a.lamp.code
  | none => 0

/-- The reader line of a number 0 to 23. -/
def lineOf (n : Nat) : Option LineNo := if h : n < 24 then some ⟨n, h⟩ else none

/-- The take of an INJECT (R64). The table of R64 gives a PRESENT's badge number no range: 0 and
4,294,967,295 go through to the check, which finds no worker (DESIGN CHOICE, notes/assumptions/41.md). -/
def takeInject (p : InjectParams) (s : State) : State :=
  if s.mode.rehearsal = false then endRequest .notRehearsal none none s
  else if p.event = 0 then
    match lineOf p.unit with
    | some l =>
      if p.issue ≤ 15 then
        let (a, s1) := takePresentation true l ⟨p.site, p.badge, p.issue, s.clock.now⟩ s
        endRequest .done (some (answerCount a)) (some 0) s1
      else endRequest .range none none s
    | none => endRequest .range none none s
  else if p.event = 1 then
    match doorOf p.unit, Contact.ofCode p.contact with
    | some d, some c =>
      endRequest .done (some 0) (some 0) (if s.doors[d].contact = c then s else contactEvent d c s)
    | _, _ => endRequest .range none none s
  else if p.event = 2 then
    match doorOf p.unit with
    | some d => endRequest .done (some 0) (some 0) (pressRex d s)
    | none => endRequest .range none none s
  else endRequest .range none none s

end Sys2Proof.Machine
end

