-- ==== Sys2Proof/Machine/Requests.lean ====
section
/-! DEFINITION. Requests: how one is taken and carried out (R166), the requests of the worker table
(R32, R33, R38, R39), ZONE_SET (R73), and the requests that write output (R132 to R137, R168, R169). -/

namespace Sys2Proof.Machine

/-! ### Carrying out a request (R166; notes/assumptions/7.md) -/

/-- A request can be carried out: in RUNNING, either as the request that a poll has taken from the work
list, or with no request in progress, no return pending and no muster write. -/
def mayTake (r : Req) (notify : Bool) (s : State) : Bool :=
  s.regs.run == .running &&
  match s.link.request with
  | none => s.link.ret.isNone && s.link.muster.isNone
  | some q => q.req == r && q.notify == notify && q.stage == .taken

/-- The state with a request in progress, just taken. -/
def beginRequest (r : Req) (notify : Bool) (s : State) : State :=
  { s with link := { s.link with request := some ⟨r, notify, .taken, 0, 0⟩ } }

/-- A request is taken and handed to its block, whose act is `f`. -/
def carryOut (r : Req) (notify : Bool) (f : State → State) (s : State) : State :=
  if mayTake r notify s then f (beginRequest r notify s) else s

/-! ### The worker table -/

/-- The take of an ENROL (R32). -/
def takeEnrol (p : EnrolParams) (s : State) : State :=
  match enrolTest s p with
  | .error st => endRequest st (some 0) none s
  | .ok a => endRequest .done (some 0) none (enrolWorker p a s)

/-- A present badge number is held by a different slot (R33). -/
def badgeTaken (s : State) (p : AmendParams) : Bool :=
  p.mask.getLsbD 0 &&
  match lookupBadge p.vals.badge s.table.index with
  | some k => k != p.vals.slot
  | none => false

/-- The index after a worker's badge has changed, as one change (R30). -/
def moveBadge (old new slot : Nat) (l : List (Nat × Nat)) : List (Nat × Nat) :=
  if old = new then l else insertBadge new slot (dropBadge old l)

/-- The present fields written and the index updated (R33). -/
def amendSlot (p : AmendParams) (w : Worker) (s : State) : State :=
  let w1 := amendWorker s.cal p w
  { s with table := { s.table with
      workers := putSlot p.vals.slot w1 s.table.workers
      index := moveBadge w.badge w1.badge p.vals.slot s.table.index } }

/-- The take of an AMEND (R33). -/
def takeAmend (p : AmendParams) (s : State) : State :=
  if !amendInRange s p then endRequest .range (some 0) none s
  else match workerAt s p.vals.slot with
    | none => endRequest .slotEmpty (some 0) none s
    | some w =>
      if badgeTaken s p then endRequest .badgeInUse (some 0) none s
      else endRequest .done (some 0) none (amendSlot p w s)

/-- The refusals of RELOCATE in their order, or the zone (R38). -/
def relocateTest (s : State) (slot zone : Nat) : Except Status ZoneNo :=
  match zoneOf zone with
  | none => .error .range
  | some z =>
    if !slotInRange s slot then .error .range
    else match workerAt s slot with
      | none => .error .slotEmpty
      | some w =>
        if fireActive s then .error .fireActive
        else if grantNames s slot then .error .grantPending
        else match zoneAt s z with
          | none => .ok z
          | some e =>
            if !e.present then .error .zoneAbsent
            else if decide (w.location ≠ z) && zoneFull e then .error .zoneFull
            else .ok z

/-- The take of a RELOCATE (R38). -/
def takeRelocate (slot zone : Nat) (s : State) : State :=
  match relocateTest s slot zone with
  | .error st => endRequest st (some 0) none s
  | .ok z => endRequest .done (some 0) none (moveWorker slot z s)

/-- FORGIVE moves a worker: OFF, inside, and named by no grant (R39). -/
def forgives (s : State) (slot : Nat) : Bool :=
  match workerAt s slot with
  | some w => w.interval.isNone && decide (w.location ≠ 0) && !grantNames s slot
  | none => false

/-- The take of a FORGIVE (R39). -/
def takeForgive (s : State) : State :=
  if fireActive s then endRequest .fireActive (some 0) none s
  else
    let movers := (slotsInUse s).filter (forgives s)
    endRequest .done (some movers.length) none (movers.foldl (fun s k => moveWorker k 0 s) s)

/-! ### ZONE_SET -/

/-- The take of a ZONE_SET (R73). -/
def takeZoneSet (zone : Nat) (present : Bool) (ceiling capacity : Nat) (s : State) : State :=
  match zoneOf zone with
  | none => endRequest .range none none s
  | some z =>
    if z = 0 ∨ 4095 < capacity ∨ 3 < ceiling then endRequest .range none none s
    else endRequest .done (some 0) none
      (modZone z (fun e => { e with present := present, ceiling := ceiling, capacity := capacity }) s)

/-! ### STATEMENT (R132 to R137) -/

/-- The first in-use slot from a cursor to the last slot. -/
def nextInUse (s : State) (cursor last : Nat) : Option Nat :=
  (slotsInUse s).find? fun k => cursor ≤ k && k ≤ last

/-- The statement in progress ends, or goes on to its next copy (R135). -/
def statementStep (s : State) : State :=
  match s.link.request with
  | some ⟨.statement _ last _ out, _, .output, cursor, written⟩ =>
    (match nextInUse s cursor last with
    | none => endRequest .done (some written) (some 0) s
    | some k => if written = out.cap then endRequest .partial_ (some written) (some k) s else s)
  | _ => s

/-- The request in progress with another cursor and another count of records written. -/
def setProgress (cursor written : Nat) (s : State) : State :=
  { s with link := { s.link with
      request := s.link.request.map fun q => { q with cursor := cursor, written := written } } }

/-- The take of a STATEMENT (R132); a range with no in-use slot is answered at once (R135). -/
def takeStatement (first last : Nat) (out : OutArea) (s : State) : State :=
  if last < first ∨ slotInRange s last = false then endRequest .range (some 0) none s
  else match outputTest out with
    | some st => endRequest st (some 0) none s
    | none => statementStep (setProgress first 0 (setStage .output s))

/-- The worker's accumulators cleared (R134). -/
def clearPay (w : Worker) : Worker :=
  { w with reg := 0, night := 0, ot := 0, hol := 0, saturated := false }

/-- The copy of one worker, and its clearing under RESET (R133, R134). -/
def copyWorker (slot : Nat) (w : Worker) (reset : Bool) (s : State) : State :=
  holdOutput (.statement (statementRec s.pay s.clock.now slot w reset))
    (if reset then setWorker slot (clearPay w) s else s)

/-- The next copy of the statement in progress (R133): made in RUNNING while no record is held. -/
def nextCopy (s : State) : State :=
  match s.link.request, s.link.output with
  | some ⟨.statement _ last reset _, _, .output, cursor, written⟩, none =>
    if s.regs.run = .running then
      match nextInUse s cursor last with
      | none => statementStep s
      | some k =>
        (match workerAt s k with
        | some w => setProgress (k + 1) written (copyWorker k w reset s)
        | none => s)
    else s
  | _, _ => s

/-- A copy undone (R137): with RESET the copied minutes are added back. -/
def undoCopy (r : StatementRec) (s : State) : State :=
  match workerAt s r.slot with
  | none => s
  | some w =>
    if r.reset then
      let (w1, _) := addClasses w r.reg r.night r.ot r.hol
      setWorker r.slot { w1 with saturated := w1.saturated || r.saturated } s
    else s

/-! ### Output (R168, R169) -/

/-- The take of a READ_STATUS (R169). -/
def takeReadStatus (out : OutArea) (s : State) : State :=
  match outputTest out with
  | some st => endRequest st (some 0) none s
  | none => holdOutput (.snapshot (statusSnapshot s)) s

/-- The output area of a request that writes output. -/
def outputArea : Req → Option OutArea
  | .withdraw _ _ o => some o
  | .statement _ _ _ o => some o
  | .readStatus o => some o
  | .enrol _ | .amend _ | .relocate _ _ | .forgive | .setTime _ | .calSet _ _ | .calClear _
  | .zoneSet _ _ _ _ | .doorMode _ _ | .doorPulse _ _ | .clearFault _ | .ring _ _ _ | .inject _ => none

/-- The write of the held output record (R168): in RUNNING, at its place in place order. Then the
request ends, or a statement goes on; a write that meets an error leaves the record held (R175). -/
def writeHeld (s : State) : State :=
  match s.link.request, s.link.output with
  | some q, some o =>
    if s.regs.run = .running then
      match outputArea q.req with
      | none => s
      | some out =>
        match linkWrite out.addr (o.size * q.written) o.bytes s with
        | (false, s1) => s1
        | (true, s1) =>
          let s2 := setProgress q.cursor (q.written + 1) { s1 with
            link := { s1.link with output := none } }
          match q.req with
          | .statement .. => statementStep s2
          | _ => endRequest .done (some (q.written + 1)) none s2
    else s
  | _, _ => s

/-! ### The arbiter outside a drain (R37, R113) -/

/-- A deferred forced WITHDRAW that finds a place is tested again and carried out (R37). -/
def serveWithdraw (s : State) : State :=
  if s.regs.run = .running ∧ hasRoom s = true ∧ withdrawWaits s = true then resumeWithdraw s else s

/-- The waiting closing first in line is made, when it finds room and no WITHDRAW waits ahead of it
(R113). -/
def serveClosing (s : State) : State :=
  if s.regs.run = .running ∧ hasRoom s = true ∧ withdrawWaits s = false then
    match waitingSlots s with
    | slot :: _ => autoClose slot .deadline s
    | [] => s
  else s

end Sys2Proof.Machine
end

