-- ==== Sys2Proof/Machine/Run.lean ====
section
/-! DEFINITION. Polls (R165, R166), the entry to RUNNING and the resumption (R176, R182), and HALT
(R177). -/

namespace Sys2Proof.Machine

/-! ### Polls -/

/-- The poll timer starts again at the poll interval (R165). -/
def restartPoll (s : State) : State :=
  { s with link := { s.link with pollTimer := s.link.setup.map (·.poll) } }

/-- The body of a POSTED slot at `off` is taken: a request, or an answer KIND_UNKNOWN at once (R166). -/
def takeBody (su : Setup) (off : Nat) (s : State) : State :=
  let notify := readNotify s.ram su.workList off
  match readRequest s.ram su.workList off with
  | some r => beginRequest r notify s
  | none =>
    settleReturn { s with link := { s.link with
      ret := some ⟨.kindUnknown, none, none, notify, s.link.draws⟩
      draws := s.link.draws + 1 } }

/-- The slot at the work list position is examined: its owner byte in one access, and the rest of a
POSTED slot in another (R165, R166). -/
def examineSlot (s : State) : State :=
  match s.link.setup with
  | none => s
  | some su =>
    let off := 64 * s.link.workPos
    match linkAccess s with
    | (false, s1) => s1
    | (true, s1) =>
      if readByte s1.ram su.workList off = 0x5A then
        match linkAccess s1 with
        | (false, s2) => s2
        | (true, s2) => takeBody su off s2
      else s1

/-- The controller is free to read the work list (R165). -/
def mayExamine (s : State) : Bool :=
  s.regs.run == .running && s.link.request.isNone && s.link.ret.isNone && s.link.muster.isNone

/-- One poll (R165): the timer restarts, the queue is drained, and the slot is examined. A poll is made
in RUNNING only. A drain that ends a deferred WITHDRAW leaves the controller free, and the same poll then
reads the next slot (DESIGN CHOICE, notes/assumptions/38.md). -/
def pollOnce (s : State) : State :=
  if s.regs.run = .running then
    let s1 := drain (restartPoll s)
    if mayExamine s1 then examineSlot s1 else s1
  else s

/-! ### Entry to RUNNING (R176, R182) -/

/-- An act of the resumption is made only while the run state is RUNNING: an error at any access
returns the part to ISOLATED. -/
def whileRunning (f : State → State) (s : State) : State := if s.regs.run = .running then f s else s

/-- The steps of R176: the pending return, the held output record, the drain, the muster write. -/
def resumeLink (s : State) : State :=
  restartPoll (whileRunning startMuster (whileRunning drain (whileRunning writeHeld
    (whileRunning settleReturn s))))

/-- The run state set. -/
def setRun (r : RunState) (s : State) : State := { s with regs := { s.regs with run := r } }

/-- The entry to RUNNING from HALTED or LOADING (R182): the doors, then the deadlines, then the work of
R176. An AUTO_CLOSE that the deadlines make with the holding queue empty begins its journal write at once
(R172), before the pending return and the held output record (DESIGN CHOICE, notes/assumptions/44.md). -/
def enterRunning (s : State) : State :=
  resumeLink (entryDeadlines (recomputeDoors (setRun .running s)))

/-- RUN (R179, R181): the entry from HALTED with a valid configuration, or the resumption from
ISOLATED; disregarded in any other run state. -/
def runOp (s : State) : State :=
  match s.regs.run with
  | .halted => if s.regs.configValid then enterRunning s else s
  | .isolated => resumeLink (setRun .running s)
  | .clearing | .loading | .running => s

/-! ### HALT (R177) -/

/-- Where a statement that HALT ends is to be resumed: the first in-use slot in range whose record has not
been written, or 0xFFFF (R137). -/
def resumeSlot (s : State) (cursor last : Nat) : Nat := (nextInUse s cursor last).getD 0xFFFF

/-- The count and resume index of a request that HALT ends, and what its block does (R37, R100, R137,
R168, R169, R177). A request that a poll has taken and that its row has not yet carried out has written
nothing; the numbers that no rule states for it are free (notes/assumptions/25.md). -/
def haltAnswer (q : Request) (s : State) : Option Nat × Option Nat × State :=
  let drop := fun s : State => { s with link := { s.link with output := none } }
  match q.stage, q.req with
  | .output, .statement _ last _ _ =>
    (match s.link.output with
    | some (.statement r) => (some q.written, some r.slot, drop (undoCopy r s))
    | _ => (some q.written, some (resumeSlot s q.cursor last), drop s))
  | .output, .readStatus _ => (some 0, some 0, drop s)
  | .output, _ => (some 0, none, drop s)
  | .deferred, _ => (some 0, some 0, s)
  | .checking, _ => (some 0, none, s)
  | .taken, .statement first last _ _ => (some 0, some (resumeSlot s first last), s)
  | .taken, .readStatus _ => (some 0, some 0, s)
  | .taken, .withdraw _ true _ => (some 0, none, s)
  | .taken, .clearFault _ => (some 0, none, s)
  | .taken, _ => (none, none, s)

/-- HALT ends the request in progress with HALTED_PARTIAL; its slot is returned at once when `now`. -/
def haltRequest (now : Bool) (s : State) : State :=
  match s.link.request with
  | none => s
  | some q =>
    let (count, resume, s1) := haltAnswer q s
    let s2 := pendReturn .haltedPartial count resume s1
    if now then settleReturn s2 else s2

/-- HALT taken in RUNNING or ISOLATED (R177, R182). -/
def haltRunning (s : State) : State :=
  let s0 := musterCut s
  let s1 := haltRequest (s0.regs.run == .running) (setRun .halted s0)
  let s2 := dropDue (haltMuster (haltBells (haltDoors s1)))
  { s2 with link := { s2.link with pollTimer := none } }

end Sys2Proof.Machine
end

