-- ==== Sys2Proof/Machine/Load.lean ====
section
/-! DEFINITION. The load (R162 to R164): its start, the tests of the setup block and the tables in their
fixed sequence, the roster step (R41, R42), its success and its failure. -/

namespace Sys2Proof.Machine

/-- Why a load fails: code, table identifier, entry index (R162). -/
structure LoadFault where
  code : LoadCode
  table : TableId
  entry : Nat
deriving DecidableEq, Repr

/-! ### The result word -/

/-- The bytes of a result word (R178). -/
def resultWord (code : LoadCode) (table : TableId) (entry : Nat) : List Byte :=
  [byteOf code.code, byteOf table.code] ++ le16 entry

/-- One write access of the result word. -/
def writeResult (f : LoadFault) (s : State) : Bool × State :=
  linkWrite s.regs.setupAddr 0 (resultWord f.code f.table f.entry) s

/-- The load ends in failure (R162, R181): the configuration stays invalid, the run state becomes
HALTED, the RUN mark is dropped and LOAD_FAILED is raised. -/
def loadFailed (s : State) : State :=
  raise .loadFailed { s with regs := { s.regs with
    run := .halted, configValid := false, runMark := false } }

/-- A load that fails after step 1 writes the result word if the link allows that write (R162). -/
def failLoad (f : LoadFault) (s : State) : State := loadFailed (writeResult f s).2

/-! ### The start of a load -/

/-- Every door takes the default column, its contact state is that of the real input, and its relay is
no more held by rehearsal (R63, R83, R85). -/
def Door.unload (e : Door) : Door :=
  drive false (wantedRelay e) { e with
    entry := DoorEntry.default
    settle := none
    disagree := 0
    contact := contactOf DoorEntry.default.polarity e.circuit }

/-- A zone from the start of a load (R65, R70). -/
def Zone.unload (z : Zone) : Zone := { Zone.reset with occupancy := z.occupancy }

/-- The tables emptied, and the mode word in force cleared, at the start of a load (R14, R16, R17, R21,
R51, R63, R65, R83, R85, R119, R120, R139). -/
def emptyTables (s : State) : State :=
  { s with
    mode := ModeWord.clear
    cal := Calendar.empty
    pay := PayTables.empty
    bells := { s.bells with plan := [], due := [] }
    lines := s.lines.map fun l => { l with desc := ReaderDesc.unused }
    zones := s.zones.map Zone.unload
    doors := s.doors.map Door.unload }

/-- The memory link controller at the start of a load (R164). -/
def startLink (s : State) : State :=
  { s with link := { s.link with
    workPos := 0, journalPos := 0, fill := 0, ret := none, contWritten := false } }

/-- The plant clock unit at the start of a load (R14): the slew is cancelled, and a LOCKED or HOLDOVER
unit moves to UNSYNCED with its record and event. -/
def startSync (s : State) : State :=
  changeSync .unsynced { s with clock := { s.clock with slew := none, holdover := 0 } }

/-- LOAD (R162, steps 1 and 2; R181): in HALTED the load starts; in any other run state it is
disregarded. -/
def startLoad (withRun : Bool) (s : State) : State :=
  if s.regs.run = .halted then
    let s1 := { s with regs := { s.regs with run := .loading, configValid := false, runMark := withRun } }
    let s2 := startSync (startLink (emptyTables s1))
    if s2.regs.setupAddr.toNat % 64 ≠ 0 then loadFailed s2
    else
      match writeResult ⟨.inProgress, .setup, 0⟩ s2 with
      | (true, s3) => s3
      | (false, s3) => failLoad ⟨.link, .setup, 0⟩ s3
  else s

/-! ### The tests of the setup block (R5, R25, R26, R163) -/

/-- The first test that fails decides. -/
def firstFault : List (Bool × LoadFault) → Option LoadFault
  | [] => none
  | (true, f) :: _ => some f
  | (false, _) :: rest => firstFault rest

/-- W is a multiple of 256 in 256 to 3840 (R25). -/
def capacityOk (w : Nat) : Bool := 256 ≤ w && w ≤ 3840 && w % 256 == 0

/-- W differs from the one in force and no roster reload replaces it (R25). -/
def capacityChanged (s : State) (b : SetupBlock) : Bool :=
  match s.table.capacity with
  | some w => !b.reload && w != b.capacity
  | none => false

/-- The records held do not fit the Q of a W (R26). -/
def queueTooLong (s : State) (w : Nat) : Bool := decide (Config.recordUnits - w < s.link.queue.length)

/-- The initial time field fails the load (R5). -/
def noTime (s : State) (b : SetupBlock) : Bool :=
  if b.time = Config.allOnes then !s.clock.valid else decide (Config.lastSecond < b.time)

/-- An address that is not a multiple of `n`. -/
def misaligned (n : Nat) (a : Word) : Bool := decide (a.toNat % n ≠ 0)

/-- The tests of the setup block's own fields, in the order of R163. -/
def setupTests (s : State) (b : SetupBlock) : List (Bool × LoadFault) :=
  let here := fun c => (⟨c, .setup, 0⟩ : LoadFault)
  [ (!capacityOk b.capacity, here .length),
    (capacityChanged s b, here .capacityChange),
    (queueTooLong s b.capacity, here .capacityChange),
    (noTime s b, here .noTime),
    (misaligned 64 b.workList, here .align),
    (decide (b.workLog < 2 ∨ 8 < b.workLog), here .length),
    (misaligned 32 b.journal, here .align),
    (decide (b.journalLog < 4 ∨ 12 < b.journalLog), here .length),
    (misaligned 4 b.musterArea, here .align),
    ([b.roster, b.zone, b.door, b.reader, b.shift, b.rota, b.payRule, b.grade, b.dayType, b.week,
      b.exceptions, b.bellPlan].any (misaligned 4), here .align),
    (b.reload && decide (b.capacity < b.rosterCount), ⟨.length, .roster, b.capacity⟩),
    (decide (64 < b.exceptionCount), ⟨.length, .exceptions, 64⟩),
    (decide (128 < b.bellCount), ⟨.length, .bellPlan, 128⟩) ]

/-! ### The tests of the tables -/

/-- A shift entry fails (R21). -/
def shiftFault (h : Shift) : Option LoadCode :=
  if h.valid = true ∧ (1439 < h.start ∨ h.length < 60 ∨ 960 < h.length) then some .shiftLength else none

/-- A rota entry names a shift above 32 or one that is not VALID (R21). -/
def badShiftRef (shifts : List Shift) (n : Nat) : Bool :=
  n != 0 && !((shifts[n - 1]?).any (·.valid))

/-- A crew fails (R21). -/
def crewFault (shifts : List Shift) (c : Crew) : Option LoadCode :=
  if c.cycle < 1 ∨ 28 < c.cycle then some .length
  else if c.rota.any (badShiftRef shifts) then some .shiftRef
  else none

/-- An exception entry fails beside the day of the entry before it (R17). -/
def exceptionFault (before : Option Nat) (day : Nat) : Option LoadCode :=
  match before with
  | some d =>
    if day = d then some .duplicate
    else if day < d ∨ Config.lastDay < day then some .order else none
  | none => if Config.lastDay < day then some .order else none

/-- The quanta that divide an hour (R119). -/
def quanta : List Nat := [1, 2, 3, 4, 5, 6, 10, 12, 15, 20, 30, 60]

/-- A door entry fails on its zone bytes (R85). -/
def doorFault (m : Memory) (a : Word) (k : Nat) : Option LoadCode :=
  let x := readByte m a (20 * k)
  let y := readByte m a (20 * k + 1)
  if 15 < x ∨ 15 < y ∨ x = y then some .zoneRef else none

/-- A reader descriptor fails on its second byte (R51). -/
def readerFault (m : Memory) (a : Word) (k : Nat) : Option LoadCode :=
  let kind := readByte m a (4 * k)
  let n := readByte m a (4 * k + 1)
  if (kind = 1 ∨ kind = 2) ∧ 11 < n then some .doorRef
  else if kind = 4 ∧ (n = 0 ∨ 15 < n) then some .zoneRef
  else none

/-- A bell plan entry fails beside the second of the entry before it (R139). -/
def bellFault (before : Option Nat) (sec : Nat) : Option LoadCode :=
  if Config.daySeconds ≤ sec then some .order
  else match before with
    | some b => if sec < b then some .order else none
    | none => none

/-- One read access of a table entry, with the code its test gives. -/
structure EntryRead where
  table : TableId
  entry : Nat
  fault : Option LoadCode
deriving DecidableEq, Repr

/-- The reads of a table of `n` entries, in entry order. -/
def tableReads (t : TableId) (n : Nat) (test : Nat → Option LoadCode) : List EntryRead :=
  (List.range n).map fun k => ⟨t, k, test k⟩

/-- The entry before entry `k`. -/
def before (f : Nat → Nat) (k : Nat) : Option Nat := if k = 0 then none else some (f (k - 1))

/-- The shift table of a setup block. -/
def loadShifts (m : Memory) (b : SetupBlock) : List Shift := (List.range 32).map (readShift m b.shift)

/-- The reads of step 4 of R162, in its order. -/
def allReads (m : Memory) (b : SetupBlock) : List EntryRead :=
  tableReads .dayType 8 (fun _ => none) ++
  tableReads .week 7 (fun _ => none) ++
  tableReads .exceptions b.exceptionCount (fun k =>
    exceptionFault (before (readExceptionDay m b.exceptions) k) (readExceptionDay m b.exceptions k)) ++
  tableReads .shift 32 (fun k => shiftFault (readShift m b.shift k)) ++
  tableReads .rota 8 (fun k => crewFault (loadShifts m b) (readCrew m b.rota k)) ++
  tableReads .payRule 8 (fun k =>
    if quanta.contains (readPayRule m b.payRule k).quantum then none else some .quantum) ++
  tableReads .grade 32 (fun _ => none) ++
  tableReads .zone 15 (fun _ => none) ++
  tableReads .door 12 (doorFault m b.door) ++
  tableReads .reader 24 (readerFault m b.reader) ++
  tableReads .bellPlan b.bellCount (fun k =>
    bellFault (before (readBellSec m b.bellPlan) k) (readBellSec m b.bellPlan k))

/-- Reads the entries listed, each in one access; the first that fails its test, or meets an error,
ends the load (R162). -/
def readEntries : List EntryRead → State → Option LoadFault × State
  | [], s => (none, s)
  | e :: rest, s =>
    match linkAccess s with
    | (false, s1) => (some ⟨.link, e.table, e.entry⟩, s1)
    | (true, s1) =>
      match e.fault with
      | some c => (some ⟨c, e.table, e.entry⟩, s1)
      | none => readEntries rest s1

/-! ### The tables that come into force -/

/-- The calendar of a setup block. -/
def loadCalendar (m : Memory) (b : SetupBlock) : Calendar :=
  { week := (List.range 7).map (readWeek m b.week), epochWeekday := b.weekday % 7,
    holidays := (List.range 8).map (readDayType m b.dayType),
    exceptions := (List.range b.exceptionCount).map (readException m b.exceptions),
    shifts := loadShifts m b, crews := (List.range 8).map (readCrew m b.rota) }

/-- The pay tables of a setup block. -/
def loadPay (m : Memory) (b : SetupBlock) : PayTables :=
  { rules := (List.range 8).map (readPayRule m b.payRule),
    grades := (List.range 32).map (readGrade m b.grade),
    nStart := min 1439 b.nStart, nEnd := min 1439 b.nEnd }

/-- The bell plan of a setup block. -/
def loadPlan (m : Memory) (b : SetupBlock) : List BellEntry :=
  (List.range b.bellCount).map (readBell m b.bellPlan)

/-! ### The roster step (R41, R42) -/

/-- Enrols roster entries, each read in one access and tested by R32 against the shift table being
loaded. -/
def enrolRoster (cal : Calendar) (a : Word) : Nat → Nat → State → Option LoadFault × State
  | _, 0, s => (none, s)
  | k, n + 1, s =>
    match linkAccess s with
    | (false, s1) => (some ⟨.link, .roster, k⟩, s1)
    | (true, s1) =>
      let p := readEnrol s1.ram a (16 * k)
      match enrolTest { s1 with cal := cal } p with
      | .error _ => (some ⟨.roster, .roster, k⟩, s1)
      | .ok as => enrolRoster cal a (k + 1) n (enrolWorker p as s1)

/-- W comes into force (R26). -/
def fixCapacity (w : Nat) (s : State) : State := { s with table := { s.table with capacity := some w } }

/-- Steps 1 and 2 of R41, past the second holding-queue test: the new W, and a cleared table. -/
def openRoster (b : SetupBlock) (s : State) : State := clearTable (fixCapacity b.capacity s)

/-- The roster step; a failure after its step 2 leaves the table cleared (R42). -/
def rosterStep (cal : Calendar) (b : SetupBlock) (s : State) : Option LoadFault × State :=
  if queueTooLong s b.capacity then (some ⟨.capacityChange, .setup, 0⟩, s)
  else
    match enrolRoster cal b.roster 0 b.rosterCount (openRoster b s) with
    | (some f, s1) => (some f, clearTable s1)
    | (none, s1) => (none, s1)

/-- Step 5 of R162. Without ROSTER_RELOAD a W that is to be fixed takes the second test of R26. -/
def rosterOrFix (cal : Calendar) (b : SetupBlock) (s : State) : Option LoadFault × State :=
  if b.reload then rosterStep cal b s
  else if s.table.capacity.isNone && queueTooLong s b.capacity then
    (some ⟨.capacityChange, .setup, 0⟩, s)
  else (none, s)

/-! ### The success of a load -/

/-- A door when a new door table comes into force (R63, R83, R85, R98). -/
def Door.load (rehearsal : Bool) (entry : DoorEntry) (e : Door) : Door :=
  let e1 := drive rehearsal (wantedRelay e) { e with
    entry := entry
    contact := if rehearsal then .closed else contactOf entry.polarity e.circuit }
  { e1 with settle := if entry.supervised then some Config.settleBeats else none, disagree := 0 }

/-- The deadline of every ON record derived again (R110). -/
def rederive (limit : Nat) (s : State) : State :=
  mapIntervals (fun i => { i with deadline := deadlineOf limit i.captured i.tIn }) s

/-- The new configuration comes into force (R6, R25, R63, R65, R85, R110, R156, R164). -/
def putInForce (m : Memory) (b : SetupBlock) (s : State) : State :=
  let su := b.inForce
  let r := b.modeWord.rehearsal
  rederive su.openLimit { s with
    mode := b.modeWord
    cal := loadCalendar m b
    pay := loadPay m b
    table := { s.table with capacity := some (s.table.capacity.getD b.capacity) }
    lines := s.lines.mapFinIdx fun k l _ => { l with desc := readReader m b.reader k }
    zones := s.zones.mapFinIdx fun k z _ => readZone m b.zone k z
    doors := s.doors.mapFinIdx fun k e _ => e.load r (readDoor m b.door k)
    bells := { s.bells with plan := loadPlan m b }
    fire := { s.fire with evacMask := BitVec.ofNat 8 b.evacMask }
    link := { s.link with setup := some su }
    regs := { s.regs with configValid := true } }

/-- The initial time field is acted on (R5): a first setting, with H at the time set (R141), or a
step. -/
def loadTime (b : SetupBlock) (s : State) : State :=
  if b.time = Config.allOnes then s
  else if s.clock.valid then stepTo ⟨b.time, 0⟩ .load s
  else
    report (.clockStep none .load) { s with
      clock := { s.clock with now := ⟨b.time, 0⟩, valid := true, slew := none }
      bells := { s.bells with passed := b.time } }

/-- The end of a load that has succeeded (R162, R181): LOAD_DONE, then HALTED, or the entry to RUNNING
when it was ordered with RUN. -/
def loadDone (s : State) : State :=
  let s1 := raise .loadDone s
  let s2 := setRun .halted { s1 with regs := { s1.regs with runMark := false } }
  if s.regs.runMark then enterRunning s2 else s2

/-- The success of a load: the result word OK, then the configuration in force, and only then the initial
time, whose step finds the new tables (DESIGN CHOICE, notes/assumptions/32.md). -/
def succeedLoad (m : Memory) (b : SetupBlock) (s : State) : Option LoadFault × State :=
  match writeResult ⟨.ok, .setup, 0⟩ s with
  | (false, s1) => (some ⟨.link, .setup, 0⟩, s1)
  | (true, s1) => (none, loadDone (loadTime b (putInForce m b s1)))

/-! ### The whole load -/

/-- Steps 3 to 6 of R162; a failure is answered with the state it is found in. -/
def loadSteps (s : State) : Option LoadFault × State :=
  match linkAccess s with
  | (false, s1) => (some ⟨.link, .setup, 0⟩, s1)
  | (true, s1) =>
    let m := s1.ram
    let b := readSetup m s1.regs.setupAddr
    match firstFault (setupTests s1 b) with
    | some f => (some f, s1)
    | none =>
      match readEntries (allReads m b) s1 with
      | (some f, s2) => (some f, s2)
      | (none, s2) =>
        match rosterOrFix (loadCalendar m b) b s2 with
        | (some f, s3) => (some f, s3)
        | (none, s3) => succeedLoad m b s3

/-- LOAD_COMPLETE: the load that LOAD started runs to its end. -/
def completeLoad (s : State) : Option LoadFault × State :=
  match loadSteps s with
  | (some f, s1) => (some f, failLoad f s1)
  | (none, s1) => (none, s1)

/-! ### HALT during a load (R42, R162) -/

/-- The setup block in shared RAM orders a roster step that the load can reach: every test before it
passes, and so does step 1 of R41. -/
def reachesRoster (s : State) : Bool :=
  let b := readSetup s.ram s.regs.setupAddr
  b.reload && (firstFault (setupTests s b)).isNone &&
    (allReads s.ram b).all (·.fault.isNone) && !queueTooLong s b.capacity

/-- HALT in LOADING abandons the load at the point reached; with the roster step begun the table is
cleared, and the new W is in force (R42). -/
def abandonLoad (rosterBegun : Bool) (s : State) : State :=
  let s1 :=
    if rosterBegun && reachesRoster s then openRoster (readSetup s.ram s.regs.setupAddr) s else s
  { s1 with regs := { s1.regs with run := .halted, configValid := false, runMark := false } }

end Sys2Proof.Machine
end

