-- ==== Sys2Proof/Machine/Control.lean ====
section
/-! DEFINITION. The control registers (chapter 11): HALT, the composite write of CTL (R179), EVENTS
(R183), hard reset and clear done (R182), and the error response of the memory link (R175). -/

namespace Sys2Proof.Machine

/-! ### Run-state commands -/

/-- HALT (R181): in LOADING it abandons the load; in HALTED and CLEARING it changes nothing. -/
def haltOp (rosterBegun : Bool) (s : State) : State :=
  match s.regs.run with
  | .clearing | .halted => s
  | .loading => abandonLoad rosterBegun s
  | .running | .isolated => haltRunning s

/-- The commands of a CTL write, taken together (R179). R179 lets the fire unit or the run-state command
take the write first; here LOAD or RUN and NUDGE come before ACKFIRE (DESIGN CHOICE,
notes/assumptions/37.md). -/
def ctlWrite (v : Word) (s : State) : State :=
  if v.getLsbD 0 then haltOp false s
  else
    let s1 :=
      if v.getLsbD 1 then startLoad (v.getLsbD 2) s
      else if v.getLsbD 2 then runOp s
      else s
    let s2 := if v.getLsbD 3 then pollOnce s1 else s1
    if v.getLsbD 4 then ackFire s2 else s2

/-! ### The other registers -/

/-- A write to EVENTS clears the flags whose bits are one; clearing JOURNAL sets the fill count to 0
(R183). A one written to the JOURNAL bit does so while the flag is already clear too (DESIGN CHOICE,
notes/assumptions/45.md). In CLEARING every register write is disregarded (R179). -/
def clearEvents (v : Word) (s : State) : State :=
  if s.regs.run = .clearing then s
  else
    let s1 := { s with regs := { s.regs with events := s.regs.events &&& ~~~(v.setWidth 12) } }
    if v.getLsbD Event.journal.bit then { s1 with link := { s1.link with fill := 0 } } else s1

/-- A 32-bit write at an offset (11.1, R179, R180, R183, R184): PLANT_TIME takes nothing, and writes at
0x18 to 0x1F are disregarded. Off a register's own offset, and outside the window, a write meets no
register and is disregarded too (DESIGN CHOICE, notes/assumptions/12.md). -/
def writeRegister (offset : Nat) (v : Word) (s : State) : State :=
  if offset = 0x00 then ctlWrite v s
  else if offset = 0x04 then
    (if s.regs.run = .halted then { s with regs := { s.regs with setupAddr := v } } else s)
  else if offset = 0x08 then clearEvents v s
  else if offset = 0x0C then { s with regs := { s.regs with eventEn := v.setWidth 12 } }
  else if offset = 0x10 then { s with regs := { s.regs with eventLine := v.setWidth 12 } }
  else s

/-! ### Hard reset (R182) -/

/-- The doors at the release of RESET_N: each contact circuit as it stands (R83). -/
def Door.powerUp (closed : Bool) : Door :=
  { Door.reset with circuit := closed, contact := contactOf DoorEntry.default.polarity closed }

/-- RESET_N asserted and released: every block at its reset values, in CLEARING; an input asserted at
the release is an assertion accepted in CLEARING (R153; notes/assumptions/1.md). Shared RAM is not the
part's, and keeps its contents. -/
def hardResetOp (circuits : DoorPins) (fire : Bool) (s : State) : State :=
  let s1 := { State.reset with
    doors := Vector.ofFn fun d => Door.powerUp (circuits.getLsbD d.val)
    ram := s.ram
    linkAnswers := s.linkAnswers
    pending := s.pending }
  if fire then assertFire s1 else s1

/-- Clear done: the run state becomes HALTED, and a FIRE_ON record and event deferred from CLEARING
are made (R153, R182). -/
def clearDoneOp (s : State) : State :=
  if s.regs.run = .clearing then
    let s1 := setRun .halted s
    match s.fire.deferred with
    | some (t, lapses, again) =>
      raise .fireOn (handOver false t (.fireOn .clearing lapses again)
        { s1 with fire := { s1.fire with deferred := none } })
    | none => s1
  else s

/-! ### Link errors (R175; notes/assumptions/8.md) -/

/-- The coming accesses answered well `n` times and then by an error, ahead of those already listed. -/
def failAfter (n : Nat) (s : State) : State :=
  { s with linkAnswers := List.replicate n false ++ true :: s.linkAnswers }

/-- The load in progress meets an error at its access number `n`: it fails with LINK; a load that ends
before that access does not meet it. -/
def loadMeetsError (n : Nat) (s : State) : State :=
  match completeLoad (failAfter n s) with
  | (some ⟨.link, _, _⟩, s1) => s1
  | _ => s

/-- An error response in RUNNING: a muster write in progress has written `n` more entries and is
suspended; any other access is kept as it stands for the resumption. -/
def runningMeetsError (n : Nat) (s : State) : State :=
  match s.link.muster with
  | some m => finishMuster (failAfter (min n m.remaining) s)
  | none => linkFail s

/-- An error response to an access in flight, by run state (R175, R181). -/
def errorInFlight (n : Nat) (s : State) : State :=
  match s.regs.run with
  | .loading => loadMeetsError n s
  | .running => runningMeetsError n s
  | .halted => if s.link.ret.isSome then linkFail s else s
  | .clearing | .isolated => s

/-- LINK_ERROR: an error meets the access in flight, or the answers to the coming accesses are set. -/
def linkErrorOp (e : LinkFault) (s : State) : State :=
  match e with
  | .inFlight n => errorInFlight n s
  | .ahead answers => { s with linkAnswers := answers }

end Sys2Proof.Machine
end

