-- ==== Sys2Proof/WellFormed.lean ====
section
/-! DEFINITION. Which commands are well formed: a request's parameters fit the fields the work slot
gives them (R178), a timestamp is one plant time can show (00_scope.md, Time), and a register write
names a register of the window (11.1). A command's meaning never depends on this check. -/

namespace Sys2Proof

/-- A timestamp plant time can show. -/
def Stamp.wellFormed (t : Stamp) : Bool := t.sec ≤ Config.lastSecond && t.beat < 16

/-- An output area fits the work slot's fields: an address of four bytes, a capacity of two. -/
def OutArea.wellFormed (o : OutArea) : Bool := o.cap < 65536

/-- ENROL parameters fit their fields. -/
def EnrolParams.wellFormed (p : EnrolParams) : Bool :=
  p.slot < 65536 && p.assignKind < 256 && p.assignNo < 256 && p.badge ≤ Config.allOnes &&
  p.issue < 256 && p.rule < 256 && p.grade < 256 && p.profile < 256 && p.clearance < 256

/-- INJECT parameters fit their fields. -/
def InjectParams.wellFormed (p : InjectParams) : Bool :=
  p.event < 256 && p.unit < 256 && p.contact < 256 && p.issue < 256 && p.site < 65536 &&
  p.badge ≤ Config.allOnes

/-- A request's parameters fit the fields the work slot gives them (R178). -/
def Req.wellFormed : Req → Bool
  | .enrol p => p.wellFormed
  | .amend p => p.vals.wellFormed
  | .withdraw slot _ out => slot < 65536 && out.wellFormed
  | .relocate slot zone => slot < 65536 && zone < 256
  | .forgive => true
  | .statement first last _ out => first < 65536 && last < 65536 && out.wellFormed
  | .readStatus out => out.wellFormed
  | .setTime sec => sec ≤ Config.allOnes
  | .calSet day type => day < 65536 && type < 256
  | .calClear day => day < 65536
  | .zoneSet zone _ ceiling capacity => zone < 256 && ceiling < 256 && capacity < 65536
  | .doorMode door mode => door < 256 && mode < 256
  | .doorPulse door duration => door < 256 && duration < 256
  | .clearFault door => door < 256
  | .ring _ pattern duration => pattern < 256 && duration < 256
  | .inject p => p.wellFormed

/-- A valid frame's presentation: its fields fit the PRESENT frame (R45) and its time is a plant time. -/
def Presentation.wellFormed (p : Presentation) : Bool :=
  p.site < 65536 && p.badge ≤ Config.allOnes && p.issue < 16 && p.time.wellFormed

/-- A byte offset of the register window (11.1: offsets 0x00 to 0x1F, one register each four bytes). -/
def registerOffset (offset : Nat) : Bool := offset < 32 && offset % 4 == 0

/-- The request a command stands for, with its NOTIFY flag; none for a row that is no request. -/
def Instr.request : Instr → Option (Req × Bool)
  | .enrol n p => some (.enrol p, n)
  | .amend n p => some (.amend p, n)
  | .withdraw n slot force out => some (.withdraw slot force out, n)
  | .relocate n slot zone => some (.relocate slot zone, n)
  | .forgive n => some (.forgive, n)
  | .statement n first last reset out => some (.statement first last reset out, n)
  | .readStatus n out => some (.readStatus out, n)
  | .setTime n sec => some (.setTime sec, n)
  | .calSet n day type => some (.calSet day type, n)
  | .calClear n day => some (.calClear day, n)
  | .zoneSet n zone present ceiling capacity => some (.zoneSet zone present ceiling capacity, n)
  | .doorMode n door mode => some (.doorMode door mode, n)
  | .doorPulse n door duration => some (.doorPulse door duration, n)
  | .clearFault n door => some (.clearFault door, n)
  | .ring n mask pattern duration => some (.ring mask pattern duration, n)
  | .inject n p => some (.inject p, n)
  | .hardReset _ _ | .clearDone | .beatEnd _ | .slewEnd | .syncMark | .holdoverExpiry | .halt _
  | .load _ _ | .loadComplete _ | .run _ | .nudge _ | .ackfire | .eventsClear _
  | .registerWrite _ _ _ | .poll _ | .withdrawDeferredResume | .statementCopy | .outputWriteDone
  | .linkError _ | .frameEnd _ _ _ _ | .readerOffline _ | .presentation _ _ | .contactChange _ _
  | .rexPress _ | .releaseExpiry _ | .heldExpiry _ | .settleCheck _ | .driftFinding _
  | .deadlineReached | .waitingClosingServed | .bellEntryReached | .soundingEnd _ | .fireOn
  | .fireOff | .musterWriteStart | .musterWriteDone | .syncMarkLeadingEdge _ => none

/-- A well-formed command. -/
def Instr.wellFormed (i : Instr) : Bool :=
  match i.request with
  | some (r, _) => r.wellFormed
  | none =>
    match i with
    | .registerWrite offset width _ => registerOffset offset && (width == 8 || width == 16 || width == 32)
    | .frameEnd _ _ _ t => t.wellFormed
    | .presentation _ p => p.wellFormed
    | _ => true

end Sys2Proof
end

