-- ==== Sys2Proof/Machine/ControlCommands.lean ====
section
/-! DEFINITION. The meanings of the control commands: reset, the CTL commands, the other registers, and
the error response of the memory link. Host writes in shared RAM come before the command's own effect
(notes/assumptions/2.md). -/

namespace Sys2Proof.Machine

/-- HARD_RESET (R182). -/
def execHardReset (circuits : DoorPins) (fire : Bool) (s : State) : Host.Outcome State Fault Refusal :=
  .next (hardResetOp circuits fire s)

/-- CLEAR_DONE (R182). -/
def execClearDone (s : State) : Host.Outcome State Fault Refusal := .next (clearDoneOp s)

/-- HALT (R181). -/
def execHalt (rosterBegun : Bool) (s : State) : Host.Outcome State Fault Refusal :=
  .next (haltOp rosterBegun s)

/-- LOAD (R162). -/
def execLoad (withRun : Bool) (host : HostWrites) (s : State) : Host.Outcome State Fault Refusal :=
  .next (startLoad withRun (s.hostWrites host))

/-- LOAD_COMPLETE (R162): the end of the load in progress, if one is. -/
def execLoadComplete (host : HostWrites) (s : State) : Host.Outcome State Fault Refusal :=
  let s1 := s.hostWrites host
  .next (if s.regs.run = .loading then (completeLoad s1).2 else s1)

/-- RUN (R182). -/
def execRun (host : HostWrites) (s : State) : Host.Outcome State Fault Refusal :=
  .next (runOp (s.hostWrites host))

/-- NUDGE (R165). -/
def execNudge (host : HostWrites) (s : State) : Host.Outcome State Fault Refusal :=
  .next (pollOnce (s.hostWrites host))

/-- ACKFIRE (R155). -/
def execAckfire (s : State) : Host.Outcome State Fault Refusal := .next (ackFire s)

/-- EVENTS_CLEAR (R183). -/
def execEventsClear (value : Word) (s : State) : Host.Outcome State Fault Refusal :=
  .next (clearEvents value s)

/-- REGISTER_WRITE (11.1, R179, R180): in CLEARING, and at fewer than 32 bits, the write is
disregarded, and so is a write at an offset that is no register's (notes/assumptions/12.md). -/
def execRegisterWrite (offset width : Nat) (value : Word) (s : State) :
    Host.Outcome State Fault Refusal :=
  .next (if s.regs.run = .clearing ∨ width ≠ 32 then s else writeRegister offset value s)

/-- LINK_ERROR (R175). -/
def execLinkError (e : LinkFault) (s : State) : Host.Outcome State Fault Refusal :=
  .next (linkErrorOp e s)

end Sys2Proof.Machine
end

