-- ==== Sys2Proof/Machine/PlantCommands.lean ====
section
/-! DEFINITION. The meanings of the events at the plant's pins and of the part's own timers: reader
lines, doors, deadlines, bells, fire. An expiry that does not stand has no effect
(notes/assumptions/6.md). -/

namespace Sys2Proof.Machine

/-! ### Reader lines (chapter 3) -/

/-- FRAME_END (R45). -/
def execFrameEnd (line : LineNo) (bytes : List Byte) (framing : Bool) (lastByte : Stamp) (s : State) :
    Host.Outcome State Fault Refusal :=
  .next (frameEnds line bytes framing lastByte s)

/-- READER_OFFLINE (R48). -/
def execReaderOffline (line : LineNo) (s : State) : Host.Outcome State Fault Refusal :=
  .next (lineEnds line s)

/-- PRESENTATION (R53). -/
def execPresentation (line : LineNo) (p : Presentation) (s : State) :
    Host.Outcome State Fault Refusal :=
  .next (takeFromLine line p s)

/-! ### Doors (chapter 5) -/

/-- CONTACT_CHANGE (R83). -/
def execContactChange (door : DoorNo) (closed : Bool) (s : State) : Host.Outcome State Fault Refusal :=
  .next (changeCircuit door closed s)

/-- REX_PRESS (R94): in rehearsal the real input is disregarded (R63). -/
def execRexPress (door : DoorNo) (s : State) : Host.Outcome State Fault Refusal :=
  .next (if s.mode.rehearsal then s else pressRex door s)

/-- RELEASE_EXPIRY (R89). -/
def execReleaseExpiry (door : DoorNo) (s : State) : Host.Outcome State Fault Refusal :=
  .next (releaseEnds door s)

/-- HELD_EXPIRY (R92). -/
def execHeldExpiry (door : DoorNo) (s : State) : Host.Outcome State Fault Refusal :=
  .next (heldEnds door s)

/-- SETTLE_CHECK (R98). -/
def execSettleCheck (door : DoorNo) (s : State) : Host.Outcome State Fault Refusal :=
  .next (settleEnds door s)

/-- DRIFT_FINDING (R98). -/
def execDriftFinding (door : DoorNo) (s : State) : Host.Outcome State Fault Refusal :=
  .next (driftFound door s)

/-! ### Deadlines (chapter 6) -/

/-- DEADLINE_REACHED (R111): the earliest deadline reached and not yet acted on is acted on. -/
def execDeadlineReached (s : State) : Host.Outcome State Fault Refusal := .next (firstDeadline s)

/-- WAITING_CLOSING_SERVED (R113). -/
def execWaitingClosingServed (s : State) : Host.Outcome State Fault Refusal := .next (serveClosing s)

/-! ### Bells (chapter 8) -/

/-- BELL_ENTRY_REACHED (R142): the first entry reached and not yet acted on. -/
def execBellEntryReached (s : State) : Host.Outcome State Fault Refusal := .next (firstEntry s)

/-- SOUNDING_END (R143). -/
def execSoundingEnd (circuit : CircuitNo) (s : State) : Host.Outcome State Fault Refusal :=
  .next (modCircuit circuit Circuit.ended s)

/-! ### Fire (chapter 9) -/

/-- FIRE_ON (R153). -/
def execFireOn (s : State) : Host.Outcome State Fault Refusal := .next (assertFire s)

/-- FIRE_OFF (R154). -/
def execFireOff (s : State) : Host.Outcome State Fault Refusal := .next (clearFire s)

/-- MUSTER_WRITE_START (R157). -/
def execMusterWriteStart (s : State) : Host.Outcome State Fault Refusal := .next (startMuster s)

/-- MUSTER_WRITE_DONE (R158). -/
def execMusterWriteDone (s : State) : Host.Outcome State Fault Refusal := .next (finishMuster s)

end Sys2Proof.Machine
end

