-- ==== Sys2Proof/Machine/RequestCommands.lean ====
section
/-! DEFINITION. The meanings of the poll, of the requests, and of the steps that carry a request on.
Each request is carried out as R166 gives (`carryOut`). -/

namespace Sys2Proof.Machine

/-- POLL (R165): the poll timer expires. The host's writes in shared RAM come first
(notes/assumptions/2.md). -/
def execPoll (host : HostWrites) (s : State) : Host.Outcome State Fault Refusal :=
  .next (pollOnce (s.hostWrites host))

/-- ENROL (R32). -/
def execEnrol (notify : Bool) (p : EnrolParams) (s : State) :
    Host.Outcome State Fault Refusal :=
  .next (carryOut (.enrol p) notify (takeEnrol p) s)

/-- AMEND (R33). -/
def execAmend (notify : Bool) (p : AmendParams) (s : State) :
    Host.Outcome State Fault Refusal :=
  .next (carryOut (.amend p) notify (takeAmend p) s)

/-- WITHDRAW (R35, R36). -/
def execWithdraw (notify : Bool) (slot : Nat) (force : Bool) (out : OutArea) (s : State) :
    Host.Outcome State Fault Refusal :=
  .next (carryOut (.withdraw slot force out) notify (takeWithdraw slot force out) s)

/-- RELOCATE (R38). -/
def execRelocate (notify : Bool) (slot zone : Nat) (s : State) :
    Host.Outcome State Fault Refusal :=
  .next (carryOut (.relocate slot zone) notify (takeRelocate slot zone) s)

/-- FORGIVE (R39). -/
def execForgive (notify : Bool) (s : State) :
    Host.Outcome State Fault Refusal :=
  .next (carryOut (.forgive) notify (takeForgive) s)

/-- STATEMENT (R132). -/
def execStatement (notify : Bool) (first last : Nat) (reset : Bool) (out : OutArea) (s : State) :
    Host.Outcome State Fault Refusal :=
  .next (carryOut (.statement first last reset out) notify (takeStatement first last out) s)

/-- READ_STATUS (R169). -/
def execReadStatus (notify : Bool) (out : OutArea) (s : State) :
    Host.Outcome State Fault Refusal :=
  .next (carryOut (.readStatus out) notify (takeReadStatus out) s)

/-- SET_TIME (R15). -/
def execSetTime (notify : Bool) (sec : Nat) (s : State) :
    Host.Outcome State Fault Refusal :=
  .next (carryOut (.setTime sec) notify (takeSetTime sec) s)

/-- CAL_SET (R18). -/
def execCalSet (notify : Bool) (day type : Nat) (s : State) :
    Host.Outcome State Fault Refusal :=
  .next (carryOut (.calSet day type) notify (takeCalSet day type) s)

/-- CAL_CLEAR (R19). -/
def execCalClear (notify : Bool) (day : Nat) (s : State) :
    Host.Outcome State Fault Refusal :=
  .next (carryOut (.calClear day) notify (takeCalClear day) s)

/-- ZONE_SET (R73). -/
def execZoneSet (notify : Bool) (zone : Nat) (present : Bool) (ceiling capacity : Nat) (s : State) :
    Host.Outcome State Fault Refusal :=
  .next (carryOut (.zoneSet zone present ceiling capacity) notify (takeZoneSet zone present ceiling capacity) s)

/-- DOOR_MODE (R96). -/
def execDoorMode (notify : Bool) (door mode : Nat) (s : State) :
    Host.Outcome State Fault Refusal :=
  .next (carryOut (.doorMode door mode) notify (takeDoorMode door mode) s)

/-- DOOR_PULSE (R97). -/
def execDoorPulse (notify : Bool) (door duration : Nat) (s : State) :
    Host.Outcome State Fault Refusal :=
  .next (carryOut (.doorPulse door duration) notify (takeDoorPulse door duration) s)

/-- CLEAR_FAULT (R100). -/
def execClearFault (notify : Bool) (door : Nat) (s : State) :
    Host.Outcome State Fault Refusal :=
  .next (carryOut (.clearFault door) notify (takeClearFault door) s)

/-- RING (R149). -/
def execRing (notify : Bool) (mask : BitVec 8) (pattern duration : Nat) (s : State) :
    Host.Outcome State Fault Refusal :=
  .next (carryOut (.ring mask pattern duration) notify (takeRing mask pattern duration) s)

/-- INJECT (R64). -/
def execInject (notify : Bool) (p : InjectParams) (s : State) :
    Host.Outcome State Fault Refusal :=
  .next (carryOut (.inject p) notify (takeInject p) s)

/-- WITHDRAW_DEFERRED_RESUME (R37): a place has freed for a deferred forced WITHDRAW. -/
def execWithdrawDeferredResume (s : State) : Host.Outcome State Fault Refusal :=
  .next (serveWithdraw s)

/-- STATEMENT_COPY (R133). -/
def execStatementCopy (s : State) : Host.Outcome State Fault Refusal := .next (nextCopy s)

/-- OUTPUT_WRITE_DONE (R168): the held output record is written. -/
def execOutputWriteDone (s : State) : Host.Outcome State Fault Refusal := .next (writeHeld s)

end Sys2Proof.Machine
end

