-- ==== Sys2Proof/Machine/Dispatch.lean ====
section
/-! DEFINITION. The meaning of each command: one arm per row of spec/opcode_table.json. -/

namespace Sys2Proof.Machine

def exec (i : Instr) (s : State) : Host.Outcome State Fault Refusal :=
  match i with
  | .hardReset circuits fire => Sys2Proof.Machine.execHardReset circuits fire s
  | .clearDone => Sys2Proof.Machine.execClearDone s
  | .beatEnd readbacks => Sys2Proof.Machine.execBeatEnd readbacks s
  | .slewEnd => Sys2Proof.Machine.execSlewEnd s
  | .syncMark => Sys2Proof.Machine.execSyncMark s
  | .holdoverExpiry => Sys2Proof.Machine.execHoldoverExpiry s
  | .halt rosterBegun => Sys2Proof.Machine.execHalt rosterBegun s
  | .load withRun host => Sys2Proof.Machine.execLoad withRun host s
  | .loadComplete host => Sys2Proof.Machine.execLoadComplete host s
  | .run host => Sys2Proof.Machine.execRun host s
  | .nudge host => Sys2Proof.Machine.execNudge host s
  | .ackfire => Sys2Proof.Machine.execAckfire s
  | .eventsClear value => Sys2Proof.Machine.execEventsClear value s
  | .registerWrite offset width value => Sys2Proof.Machine.execRegisterWrite offset width value s
  | .poll host => Sys2Proof.Machine.execPoll host s
  | .enrol notify p => Sys2Proof.Machine.execEnrol notify p s
  | .amend notify p => Sys2Proof.Machine.execAmend notify p s
  | .withdraw notify slot force out => Sys2Proof.Machine.execWithdraw notify slot force out s
  | .withdrawDeferredResume => Sys2Proof.Machine.execWithdrawDeferredResume s
  | .relocate notify slot zone => Sys2Proof.Machine.execRelocate notify slot zone s
  | .forgive notify => Sys2Proof.Machine.execForgive notify s
  | .statement notify first last reset out => Sys2Proof.Machine.execStatement notify first last reset out s
  | .statementCopy => Sys2Proof.Machine.execStatementCopy s
  | .readStatus notify out => Sys2Proof.Machine.execReadStatus notify out s
  | .outputWriteDone => Sys2Proof.Machine.execOutputWriteDone s
  | .setTime notify sec => Sys2Proof.Machine.execSetTime notify sec s
  | .calSet notify day type => Sys2Proof.Machine.execCalSet notify day type s
  | .calClear notify day => Sys2Proof.Machine.execCalClear notify day s
  | .zoneSet notify zone present ceiling capacity => Sys2Proof.Machine.execZoneSet notify zone present ceiling capacity s
  | .doorMode notify door mode => Sys2Proof.Machine.execDoorMode notify door mode s
  | .doorPulse notify door duration => Sys2Proof.Machine.execDoorPulse notify door duration s
  | .clearFault notify door => Sys2Proof.Machine.execClearFault notify door s
  | .ring notify mask pattern duration => Sys2Proof.Machine.execRing notify mask pattern duration s
  | .inject notify p => Sys2Proof.Machine.execInject notify p s
  | .linkError e => Sys2Proof.Machine.execLinkError e s
  | .frameEnd line bytes framing lastByte => Sys2Proof.Machine.execFrameEnd line bytes framing lastByte s
  | .readerOffline line => Sys2Proof.Machine.execReaderOffline line s
  | .presentation line p => Sys2Proof.Machine.execPresentation line p s
  | .contactChange door closed => Sys2Proof.Machine.execContactChange door closed s
  | .rexPress door => Sys2Proof.Machine.execRexPress door s
  | .releaseExpiry door => Sys2Proof.Machine.execReleaseExpiry door s
  | .heldExpiry door => Sys2Proof.Machine.execHeldExpiry door s
  | .settleCheck door => Sys2Proof.Machine.execSettleCheck door s
  | .driftFinding door => Sys2Proof.Machine.execDriftFinding door s
  | .deadlineReached => Sys2Proof.Machine.execDeadlineReached s
  | .waitingClosingServed => Sys2Proof.Machine.execWaitingClosingServed s
  | .bellEntryReached => Sys2Proof.Machine.execBellEntryReached s
  | .soundingEnd circuit => Sys2Proof.Machine.execSoundingEnd circuit s
  | .fireOn => Sys2Proof.Machine.execFireOn s
  | .fireOff => Sys2Proof.Machine.execFireOff s
  | .musterWriteStart => Sys2Proof.Machine.execMusterWriteStart s
  | .musterWriteDone => Sys2Proof.Machine.execMusterWriteDone s
  | .syncMarkLeadingEdge quiet => Sys2Proof.Machine.execSyncMarkLeadingEdge quiet s

end Sys2Proof.Machine
end

