-- ==== Sys2Proof/Safety.lean ====
section
/-! DEFINITION. What holds of a safe run: the laws that the chapters state of the whole part, each as a
predicate of the state, and a run of commands. -/

namespace Sys2Proof.Machine

/-- A run of commands, each carried out on the state the one before left, if none stops the machine. -/
def runCommands : List Instr → State → Option State
  | [], s => some s
  | c :: rest, s =>
    match exec c s with
    | .next t => runCommands rest t
    | .fault _ => none
    | .refused _ => none

/-- The shared RAM is in its canonical form. -/
def RamCanonical (s : State) : Prop := Memory.wf s.ram = true

/-- The holding queue's law (R170): the places reserved are those of the outstanding grants, used and
reserved places never exceed Q, and no grant stands outside RUNNING and ISOLATED (R26, R101). -/
def PlacesHeld (s : State) : Prop :=
  s.link.reserved = grantCount s ∧
  s.link.queue.length + s.link.reserved ≤ queueCap s ∧
  (gatesRun s = false → grantCount s = 0)

/-- What R85 to R88, R98, R99 and R102 say of one door: it is in EGRESS exactly while fire is active; it
holds a grant only in RELEASED; a fault mark stands only in INACTIVE, EGRESS and FAULT; its relay
command is the one its state gives, held LOCKED by rehearsal except in EGRESS; and an unsupervised door
has no settle check running and no disagreement counted. -/
def DoorLawful (s : State) (e : Door) : Prop :=
  (e.state = .egress ↔ fireActive s = true) ∧
  (e.grant.isSome = true → e.state = .released ∧ gatesRun s = true) ∧
  (e.mark = true → e.state = .inactive ∨ e.state = .egress ∨ e.state = .fault) ∧
  e.cmd = (if s.mode.rehearsal = true ∧ e.state ≠ .egress then Relay.locked else wantedRelay e) ∧
  (e.entry.supervised = false → e.settle = none ∧ e.disagree = 0)

/-- Every door obeys its laws. -/
def DoorsLawful (s : State) : Prop := ∀ d : DoorNo, DoorLawful s s.doors[d]

/-- A CLEAR_FAULT check runs only at a door whose fault mark is set (R100). -/
def ChecksMarked (s : State) : Prop :=
  ∀ d : DoorNo, checksDoor s d = true → s.doors[d].mark = true

/-- Outside rehearsal each contact state is the accepted level read through the polarity (R83). -/
def ContactsFollow (s : State) : Prop :=
  s.mode.rehearsal = false →
    ∀ d : DoorNo, s.doors[d].contact = contactOf s.doors[d].entry.polarity s.doors[d].circuit

/-- A valid configuration has its clock, its setup values and its W, and the gates run under a valid
configuration only (R5, R24, R181). -/
def ConfigSound (s : State) : Prop :=
  (s.regs.configValid = true →
    s.clock.valid = true ∧ s.link.setup.isSome = true ∧ s.table.capacity.isSome = true) ∧
  (gatesRun s = true → s.regs.configValid = true)

/-- Plant time lies in its range, and the rate term in its own (R3, R4). -/
def TimeInRange (s : State) : Prop :=
  s.clock.now.sec ≤ Config.lastSecond ∧ s.clock.now.beat < 16 ∧
  -255 ≤ s.clock.rho ∧ s.clock.rho ≤ 255

/-- Slots are listed in ascending order, each once; badges in the index likewise; and the index holds
exactly the badges of the in-use records (R27, R30). -/
def TableIndexed (s : State) : Prop :=
  s.table.workers.Pairwise (fun a b => a.1 < b.1) ∧
  s.table.index.Pairwise (fun a b => a.1 < b.1) ∧
  ∀ badge slot : Nat, (badge, slot) ∈ s.table.index ↔
    ∃ w : Worker, (slot, w) ∈ s.table.workers ∧ w.badge = badge

/-- The number of in-use workers located in a zone. -/
def located (s : State) (z : ZoneNo) : Nat := s.table.workers.countP fun e => e.2.location == z

/-- The occupancy of each zone 1 to 15 is the number of in-use records located there (R67), with each
slot listed once. -/
def ZonesCounted (s : State) : Prop :=
  s.table.workers.Pairwise (fun a b => a.1 < b.1) ∧
  ∀ i : Fin 15, s.zones[i].occupancy = located s ⟨i.val + 1, by omega⟩

/-- In CLEARING no record is held and no event flag is set (11.2, R183). -/
def ClearingQuiet (s : State) : Prop :=
  s.regs.run = .clearing → s.link.queue = [] ∧ s.regs.events = 0

/-! ### The terms that the statements use -/

/-- A request is carried out at its take and its slot is returned at once: RUNNING, no request in
progress, no return pending, no muster write, setup values in force, and no error response to come. -/
structure ReadyFor (s : State) (su : Setup) : Prop where
  running : s.regs.run = .running
  request : s.link.request = none
  ret : s.link.ret = none
  muster : s.link.muster = none
  answers : s.linkAnswers = []
  setup : s.link.setup = some su

/-- The shared RAM after the slot at the work list position has been returned (R167, R178): the status
at offset 3, the count and the resume index at 8 and 10, and the owner byte last. -/
def returnedRam (su : Setup) (pos : Nat) (st : Status) (count resume : Nat) (m : Memory) : Memory :=
  writeBytes
    (writeBytes (writeBytes m su.workList (64 * pos + 3) [byteOf st.code]) su.workList (64 * pos + 8)
      (le16 count ++ le16 resume))
    su.workList (64 * pos) [0xA5]

/-- The state after the request in progress has ended and its slot has been returned (R167). A count or
resume index that the manual does not state is free. -/
def answered (su : Setup) (notify : Bool) (st : Status) (count resume : Option Nat) (s : State) :
    State :=
  let s1 := { s with
    ram := returnedRam su s.link.workPos st (statedOr count s.link.draws 0)
      (statedOr resume s.link.draws 1) s.ram
    link := { s.link with
      request := none
      ret := none
      workPos := nextWorkPos su s.link.workPos
      draws := s.link.draws + 1 } }
  if notify then raise .workDone s1 else s1

/-- `t` has returned the slot that stood at the work list position of `s`, with a status and a count. -/
def SlotReturned (su : Setup) (s t : State) (st : Status) (count : Nat) : Prop :=
  readBytes t.ram su.workList (64 * s.link.workPos + 3) 1 = [byteOf st.code] ∧
  readBytes t.ram su.workList (64 * s.link.workPos + 8) 2 = le16 count ∧
  readBytes t.ram su.workList (64 * s.link.workPos) 1 = [0xA5] ∧
  t.link.workPos = nextWorkPos su s.link.workPos ∧ t.link.request = none ∧ t.link.ret = none

/-- The state of a door that the gates run and that no fire holds, after a recompute (R87). -/
def restingState (e : Door) : DoorState :=
  if e.mark = true then .fault
  else if e.entry.mode = .free then .free
  else if e.contact = .closed then .secure
  else .open_

/-- The tables are as the start of a load leaves them, and the counts, locations and marks that a load
keeps are those of `s` (R14, R16, R17, R21, R51, R63, R65, R70, R85, R119, R120, R139, R164). -/
def TablesEmptied (s t : State) : Prop :=
  t.mode = ⟨false, false, false⟩ ∧ t.cal = ⟨[], 0, [], [], [], []⟩ ∧ t.pay = ⟨[], [], 0, 0⟩ ∧
  t.bells.plan = [] ∧ t.bells.passed = s.bells.passed ∧ t.bells.circuits = s.bells.circuits ∧
  (∀ l : LineNo, t.lines[l] = { s.lines[l] with desc := ⟨.unused, 0⟩ }) ∧
  (∀ i : Fin 15, t.zones[i] = ⟨false, .floor, 0, 0, s.zones[i].occupancy, 0⟩) ∧
  (∀ d : DoorNo,
    t.doors[d].entry = ⟨0, 0, .card, .off, false, 5, 30, .nc, true, false, 0⟩ ∧
    t.doors[d].state = s.doors[d].state ∧ t.doors[d].mark = s.doors[d].mark ∧
    t.doors[d].grant = s.doors[d].grant ∧ t.doors[d].settle = none ∧ t.doors[d].disagree = 0 ∧
    t.doors[d].found = s.doors[d].found) ∧
  t.clock.slew = none ∧ t.clock.sync = .unsynced ∧ t.clock.now = s.clock.now ∧
  t.clock.valid = s.clock.valid ∧ t.clock.rho = s.clock.rho ∧ t.clock.block = s.clock.block ∧
  t.table = s.table ∧ t.fire = s.fire ∧ t.link.setup = s.link.setup ∧
  t.link.workPos = 0 ∧ t.link.journalPos = 0 ∧ t.link.fill = 0 ∧ t.link.ret = none

/-- Roster entry `k` passes the tests of R32 in the table that the entries before it have made (R41). -/
def RosterFits (m : Memory) (b : SetupBlock) (k : Nat) : Prop :=
  let entry : Nat → EnrolParams := fun j => readEnrol m b.roster (16 * j)
  let p := entry k
  (assignmentOf (loadCalendar m b) p.assignKind p.assignNo).isSome = true ∧ p.slot < b.capacity ∧
    1 ≤ p.badge ∧ p.badge < 4294967295 ∧ p.issue ≤ 15 ∧ p.rule ≤ 7 ∧ p.grade ≤ 31 ∧
    p.profile ≤ 63 ∧ p.clearance ≤ 3 ∧
    ∀ j < k, (entry j).slot ≠ p.slot ∧ (entry j).badge ≠ p.badge

/-! ### Journal entries -/

/-- The bytes 1 to 31 of a record's journal entries (10.5): kind, sequence number, plant time, beat, flags,
slot and 20 bytes of payload, and in the continuation 0xFF, the sequence number and 28 more; bytes that the
payload does not fill are 0. -/
def Record.spelledAs (r : Record) (kind flags slot : Nat) (payload : List Byte) : Prop :=
  let filled := payload ++ List.replicate 48 0
  r.firstEntry = [byteOf kind] ++ le16 r.seq ++ le32 r.time.sec ++ [byteOf r.time.beat, byteOf flags] ++
    le16 slot ++ filled.take 20 ∧
  r.contEntry = [0xFF] ++ le16 r.seq ++ (filled.drop 20).take 28

/-- The payload fields P of a record about a passage (10.5). -/
def passageFields (p : PassageInfo) : List Byte :=
  le32 p.badge ++ [byteOf p.issue, p.door.elim 0xFF fun d => byteOf d.val, byteOf p.line.val,
    byteOf p.oldLocation.val, byteOf p.newLocation.val] ++ le32 p.time.sec ++ [byteOf p.time.beat]

/-- The payload fields of a closing: effective times, additions, break and grade (10.5). -/
def closingFields (c : ClosingResult) : List Byte :=
  le32 c.eIn ++ le32 c.eOut ++ le16 c.reg ++ le16 c.night ++ le16 c.ot ++ le16 c.hol ++
    [byteOf c.breakMin, byteOf c.grade]

/-! ### Closings and punches -/

/-- An open interval closed without a punch (R112): the record as the closing leaves it, and one
AUTO_CLOSE record with its cause, the interval as it stood and what the closing handed back, in a free
place of the holding queue and with the plant time now. -/
def autoClosed (slot : Nat) (cause : CloseCause) (w : Worker) (i : OpenInterval) (s : State) : State :=
  let done := closing s.cal s.pay w i none
  handOver false s.clock.now (.autoClose slot w.badge w.issue cause w.location i done.2)
    (setWorker slot done.1 s)

/-- A deadline acted on while the gates run: under a grant it is left to the grant's end (R116), without
room the closing waits (R113), and else the interval is closed at once (R111). -/
def deadlineActed (slot : Nat) (w : Worker) (i : OpenInterval) (s : State) : State :=
  let j := { i with due := false }
  if grantNames s slot = true then setWorker slot { w with interval := some j } s
  else if hasRoom s = false then setWorker slot { w with interval := some { j with waiting := true } } s
  else autoClosed slot .deadline w j s

/-- The deadlines of the slots listed acted on, in that order. -/
def deadlinesActed (slots : List Nat) (s : State) : State :=
  slots.foldl (fun u slot => (workerAt u slot).elim u fun w =>
    w.interval.elim u fun i => deadlineActed slot w i u) s

/-- What follows a grant's own record while the gates run (R76, R116): the worker it named is closed if
it is ON and its deadline has been reached. -/
def grantEnded (slot : Nat) (s : State) : State :=
  (workerAt s slot).elim s fun w => w.interval.elim s fun i =>
    if i.deadline ≤ s.clock.now.sec then deadlineActed slot w i s else s

/-- The interval that a clock-in at `t` opens (R105, R110): the shift resolved then, LATE past its grace,
and the deadline. -/
def openedAt (s : State) (su : Setup) (t : Nat) (w : Worker) : OpenInterval :=
  let rule := payRule s.pay w.rule
  let run := resolveShift s.cal w.assignment rule.admitMin t
  { tIn := t
    captured := run
    rule := w.rule
    late := run.any fun r => decide (r.ts + rule.graceLate * 60 < t)
    deadline := run.elim (t + 57600) fun r => r.te + su.openLimit * 60
    due := false
    waiting := false }

/-- The key of the shift that a clock-in at `t` finds (R106). -/
def keyAt (s : State) (t : Nat) (w : Worker) : ShiftKey :=
  let rule := payRule s.pay w.rule
  (resolveShift s.cal w.assignment rule.admitMin t).elim (.unscheduled (roundIn rule t / 86400))
    fun r => .scheduled r.day r.shift

/-- A worker clocked in at `t` (R105): the interval opened, and the shift-day state reset where the key
is new. -/
def clockedIn (s : State) (su : Setup) (t : Nat) (w : Worker) : Worker :=
  let key := keyAt s t w
  let same := w.lastKey = some key
  { w with
    interval := some (openedAt s su t w)
    lastKey := some key
    cday := if same then w.cday else 0
    breakTaken := if same then w.breakTaken else false
    lastEOut := if same then w.lastEOut else 0 }

/-- The PUNCH_IN record of a clock-in (R107). -/
def punchedIn (s : State) (su : Setup) (w : Worker) (info : PassageInfo) : RecordBody :=
  let i := openedAt s su info.time.sec w
  .punchIn info i.captured i.rule i.deadline i.late
    (decide (w.lastKey ≠ some (keyAt s info.time.sec w)))

/-- A worker moved to a zone, both counts with it (R67). -/
def movedTo (slot : Nat) (w : Worker) (z : ZoneNo) (s : State) : State :=
  if w.location = z then s
  else modZone z (fun e => { e with occupancy := e.occupancy + 1 })
    (modZone w.location (fun e => { e with occupancy := e.occupancy - 1 })
      (setWorker slot { w with location := z } s))

/-- What a punch kind makes of a worker `w` who now stands in the state `moved` (R78, R79, R104): `ends`
holds of its one record and of the state before that record is handed over. The presentation time of the
record is the time of the punch. -/
def PunchApplies (su : Setup) (kind : PunchKind) (info : PassageInfo) (w : Worker) (moved : State)
    (ends : RecordBody → State → Prop) : Prop :=
  (kind = .passage → ends (.passage info) moved) ∧
  (kind = .reentry → ends (.reentry info) moved) ∧
  (kind = .strayOut → ends (.strayOut info) moved) ∧
  (kind = .punchIn → w.interval = none →
    ends (punchedIn moved su w info)
      (setWorker info.slot (clockedIn moved su info.time.sec w) moved)) ∧
  ∀ i : OpenInterval, kind = .punchOut → w.interval = some i →
    let done := closing moved.cal moved.pay w i (some info.time.sec)
    ends (.punchOut info i.tIn i.captured done.2) (setWorker info.slot done.1 moved)

/-! ### Doors -/

/-- A door whose relay is asked for `want` (R86, R98): in rehearsal LOCKED stands in its place except in
EGRESS, and a change of the command starts the settle check of a supervised door. -/
def commanded (s : State) (want : Relay) (e : Door) : Door :=
  let asked := if s.mode.rehearsal = true ∧ e.state ≠ .egress then Relay.locked else want
  if e.cmd = asked then e
  else { e with
    cmd := asked
    settle := if e.entry.supervised = true then some 4 else none
    disagree := 0 }

/-- A door in another state, its timers stopped and its start times gone, with its relay commanded. -/
def entered (s : State) (st : DoorState) (want : Relay) (e : Door) : Door :=
  commanded s want
    { e with state := st, release := none, held := none, alarmStart := none, openStart := none }

/-- What a change of a door's contact state to `c` does (R90 to R92, R77), `follow` being the door with
the contact followed: an opening at a SECURE door is a forced open; one at a RELEASED door opens it and
passes its grant, in the order of R77; a closing secures the door and ends its alarm; and at any other
door the contact is followed alone. -/
def ContactActs (d : DoorNo) (c : Contact) (follow : Door → Door) (s : State) (ends : State → Prop) :
    Prop :=
  let e := s.doors[d]
  (e.state = .inactive ∨ e.state = .free ∨ e.state = .egress ∨ e.state = .fault →
    ends (modDoor d follow s)) ∧
  (c = .open_ → e.state = .open_ ∨ e.state = .held ∨ e.state = .forced → ends (modDoor d follow s)) ∧
  (c = .closed → e.state = .secure ∨ e.state = .released → ends (modDoor d follow s)) ∧
  (c = .open_ → e.state = .secure →
    ends (raise .doorAlarm (report (.doorForced d e.entry.mode) (modDoor d
      (fun e => { entered s .forced .locked (follow e) with alarmStart := some s.clock.now }) s)))) ∧
  (c = .closed → e.state = .open_ → ends (modDoor d (fun e => entered s .secure .locked (follow e)) s)) ∧
  (∀ alarm : Alarm, c = .closed →
    (e.state = .held ∧ alarm = .held) ∨ (e.state = .forced ∧ alarm = .forced) →
    ends (report (.doorRestored d alarm (e.alarmStart.getD s.clock.now))
      (modDoor d (fun e => entered s .secure .locked (follow e)) s))) ∧
  (c = .open_ → e.state = .released →
    let opened := modDoor d (fun e => { entered s .open_ .locked (follow e) with
      grant := none
      held := some (e.entry.heldLimit * 16)
      openStart := some s.clock.now }) s
    (e.grant = none → ends opened) ∧
    ∀ (g : Grant) (w : Worker) (su : Setup), e.grant = some g → workerAt s g.slot = some w →
      s.link.setup = some su → gatesRun s = true →
      let info : PassageInfo := ⟨g.slot, w.badge, w.issue, some d, g.line, g.inward, w.location,
        g.target, g.time, g.apbSoft⟩
      PunchApplies su g.kind info { w with location := g.target }
        (modZone g.target (fun z => { z with reserved := z.reserved - 1 })
          (movedTo g.slot w g.target opened))
        fun body t => ends (grantEnded g.slot (handOver true s.clock.now body t)))

/-- What a press of a door's REX input does (R94), at a door whose REX enable is set: a SECURE door is
released with no grant, a RELEASED one has its timer started again, an INACTIVE or FAULT one opens a
window, and any other stays. -/
def RexActs (d : DoorNo) (s : State) (ends : State → Prop) : Prop :=
  let e := s.doors[d]
  let window : Door → Door := fun e =>
    commanded s .released { e with release := some (e.entry.release * 16) }
  (e.state = .open_ ∨ e.state = .held ∨ e.state = .forced ∨ e.state = .free ∨ e.state = .egress →
    ends s) ∧
  (e.state = .secure → ends (modDoor d (fun e =>
    { entered s .released .released e with release := some (e.entry.release * 16) }) s)) ∧
  (e.state = .released →
    ends (modDoor d (fun e => { e with release := some (e.entry.release * 16) }) s)) ∧
  (e.state = .inactive ∨ (e.state = .fault ∧ checksDoor s d = false) → ends (modDoor d window s))

/-! ### The presentation check -/

/-- What the presentation check makes of a presentation `p` on line `l`, in service (R53 to R61, R75, R82,
R160): `ends a t` holds of its answer, none for silent, and of the state it leaves of `taken`, before the
answer reaches the line. -/
def ChecksInOrder (l : LineNo) (p : Presentation) (s taken : State)
    (ends : Option Answer → State → Prop) : Prop :=
  let k := s.lines[l].desc.kind
  let door : Option DoorNo := k.door.map (·.1)
  let refused : Option Nat → Reason → Prop := fun slot reason =>
    ends (some ⟨.red, 30⟩)
      (handOver false p.time (.refused slot p.badge p.issue l door reason) taken)
  let busy : Prop := ends (some ⟨.amber, 10⟩) taken
  (door.isSome = true → fireActive s = true → ends (some ⟨.amber, 50⟩) taken) ∧
  (∀ z : ZoneNo, k = .musterPoint z → fireActive s = false → ends (some ⟨.amber, 20⟩) taken) ∧
  ((door.isSome = true → fireActive s = false) →
    (∀ z : ZoneNo, k = .musterPoint z → fireActive s = true) →
    (heldOff s.lines[l].holdOff p = true → ends none taken) ∧
    (heldOff s.lines[l].holdOff p = false → hasRoom s = false →
      ends (some ⟨.amber, 10⟩)
        { taken with link := { s.link with holdGap := min 65535 (s.link.holdGap + 1) } }) ∧
    ∀ su : Setup, heldOff s.lines[l].holdOff p = false → hasRoom s = true → s.link.setup = some su →
      (su.site ≠ p.site → refused none .badSite) ∧
      (su.site = p.site → lookupBadge p.badge s.table.index = none → refused none .unknownBadge) ∧
      ∀ (slot : Nat) (w : Worker), su.site = p.site →
        lookupBadge p.badge s.table.index = some slot → workerAt s slot = some w →
        (w.issue ≠ p.issue → refused (some slot) .issueMismatch) ∧
        (w.issue = p.issue → w.suspended = true → refused (some slot) .suspended) ∧
        (w.issue = p.issue → w.suspended = false →
          let run := resolveShift s.cal w.assignment (payRule s.pay w.rule).admitMin p.time.sec
          let unscheduled := run = none ∧ w.unschedOk = false
          let green : RecordBody → State → Prop := fun body t =>
            ends (some ⟨.green, 20⟩) (handOver false p.time body t)
          (∀ z : ZoneNo, k = .musterPoint z →
            green (.mustered slot w.badge l z w.location w.interval.isSome w.muster)
              (setWorker slot { w with muster := true } taken)) ∧
          (k.code ≠ 4 → grantNames s slot = true → busy) ∧
          (∀ role : Role, k = .clockOnly role → grantNames s slot = false →
            let kind : PunchKind := if w.interval = none then .punchIn else .punchOut
            (role = .in_ → w.interval.isSome = true → refused (some slot) .alreadyOn) ∧
            (role = .out → w.interval = none → refused (some slot) .notOn) ∧
            (role ≠ .out → w.interval = none → unscheduled → refused (some slot) .notScheduled) ∧
            ((role ≠ .out ∧ w.interval = none ∧ ¬ unscheduled) ∨
                (role ≠ .in_ ∧ w.interval.isSome = true) →
              PunchApplies su kind
                ⟨slot, w.badge, w.issue, none, l, false, w.location, w.location, p.time, false⟩ w taken
                green)) ∧
          ∀ (d : DoorNo) (inward : Bool), k.door = some (d, inward) → grantNames s slot = false →
            let e := s.doors[d]
            let source := if inward = true then e.entry.fromZone else e.entry.toZone
            let target := if inward = true then e.entry.toZone else e.entry.fromZone
            let clocks := e.entry.fromZone = 0 ∧ e.entry.clocking = true
            let ready := (e.state = .secure ∧ e.grant = none) ∨ e.state = .free
            (e.entry.mode = .locked → refused (some slot) .doorLocked) ∧
            (e.entry.mode ≠ .locked → e.state = .fault → refused (some slot) .doorFault) ∧
            (e.entry.mode ≠ .locked → e.state ≠ .fault → ¬ ready → busy) ∧
            (e.entry.mode ≠ .locked → ready →
              let zone : (Zone → Prop) → Prop := fun f =>
                ∃ j : Fin 15, j.val + 1 = target.val ∧ f s.zones[j]
              let absent := zone fun z => z.present = false
              let closed := zone fun z => z.type = .closed
              let noProfile := zone fun _ => w.profile = 0
              let profile := zone fun _ => e.entry.profiles.getLsbD w.profile = false
              let clearance := zone fun z => z.ceiling < max w.clearance s.lines[l].desc.level
              let wrong := w.location ≠ source
              let full := zone fun z => z.capacity ≠ 0 ∧ z.capacity ≤ z.occupancy + z.reserved
              let shut := clocks ∧ inward = true ∧ w.interval = none ∧ unscheduled
              let soft := decide (wrong ∧ e.entry.apb = .soft)
              (absent → refused (some slot) .zoneAbsent) ∧
              (¬ absent → closed → refused (some slot) .zoneClosed) ∧
              (¬ absent → ¬ closed → noProfile → refused (some slot) .noProfile) ∧
              (¬ absent → ¬ closed → ¬ noProfile → profile → refused (some slot) .profile) ∧
              (¬ absent → ¬ closed → ¬ noProfile → ¬ profile → clearance →
                refused (some slot) .clearance) ∧
              (¬ absent → ¬ closed → ¬ noProfile → ¬ profile → ¬ clearance →
                (wrong → e.entry.apb = .hard → refused (some slot) .wrongZone) ∧
                (¬ (wrong ∧ e.entry.apb = .hard) → full → refused (some slot) .zoneFull) ∧
                (¬ (wrong ∧ e.entry.apb = .hard) → ¬ full → shut →
                  refused (some slot) .notScheduled) ∧
                (¬ (wrong ∧ e.entry.apb = .hard) → ¬ full → ¬ shut →
                  let kind : PunchKind :=
                    if clocks then
                      (if w.interval = none then (if inward = true then .punchIn else .strayOut)
                      else if inward = true then .reentry else .punchOut)
                    else .passage
                  let kept := modZone target (fun z => { z with reserved := z.reserved + 1 })
                    { taken with link := { s.link with reserved := s.link.reserved + 1 } }
                  (e.state = .free →
                    PunchApplies su kind
                      ⟨slot, w.badge, w.issue, some d, l, inward, w.location, target, p.time, soft⟩
                      { w with location := target } (movedTo slot w target taken) green) ∧
                  (e.state ≠ .free →
                    ends (some ⟨.green, min 255 (e.entry.release * 10)⟩)
                      (modDoor d (fun e => { entered s .released .released e with
                        release := some (e.entry.release * 16)
                        grant := some ⟨slot, l, inward, source, target, p.time, kind, soft⟩ })
                        (if freePlaces s = 1 then raise .holdFull kept else kept))))))))

end Sys2Proof.Machine
end

