-- ==== Sys2Proof/Certificates/Slice0/Obligations.lean ====
section
/-! DEFINITION. The statements for the provers: how a step takes its command, the laws every step keeps,
and what each command does to the state. OBLIGATIONS.json lists them with their sources. -/

open Sys2Proof Sys2Proof.Machine

/-! ### Steps and runs -/

/-- One step carries out the command at the front of the queue, with the rest of the queue behind it; with
no command waiting a step changes nothing, which is the model's choice (notes/assumptions/6.md). -/
def Obligations.StepRunsFrontCommand : Prop :=
  (∀ (c : Instr) (rest : List Instr) (s : State),
    step { s with pending := c :: rest } = exec c { s with pending := rest }) ∧
  ∀ s : State, s.pending = [] → step s = .next s

/-- No command touches the queue of the commands that wait behind it; the queue is the model's own
(notes/assumptions/6.md). -/
def Obligations.CommandsKeepTheQueue : Prop :=
  ∀ (c : Instr) (s t : State), exec c s = .next t → t.pending = s.pending

/-! ### Laws that every step keeps -/

/-- The machine right after reset obeys every law below; the levels its pins show there are the model's
choice (notes/assumptions/1.md). -/
def Obligations.ResetStateIsLawful : Prop :=
  RamCanonical State.reset ∧ PlacesHeld State.reset ∧ DoorsLawful State.reset ∧
  ChecksMarked State.reset ∧ ContactsFollow State.reset ∧ ConfigSound State.reset ∧ ClearingQuiet State.reset ∧
  TimeInRange State.reset ∧ TableIndexed State.reset ∧ ZonesCounted State.reset

/-- Every step keeps the shared RAM in its canonical form, which is the model's own
(notes/assumptions/3.md). -/
def Obligations.EveryStepKeepsRamCanonical : Prop :=
  ∀ s t : State, RamCanonical s → step s = .next t → RamCanonical t

/-- Every step keeps the holding queue's law: V counts the outstanding grants, U + V never exceeds Q,
and no grant stands outside RUNNING and ISOLATED. -/
def Obligations.EveryStepKeepsPlacesHeld : Prop :=
  ∀ s t : State, PlacesHeld s → step s = .next t → PlacesHeld t

/-- Every step keeps it that a CLEAR_FAULT check runs at a marked door only, and where that holds, every step
keeps the laws of the twelve doors. -/
def Obligations.EveryStepKeepsDoorsLawful : Prop :=
  ∀ s t : State, ChecksMarked s → step s = .next t →
    ChecksMarked t ∧ (DoorsLawful s → DoorsLawful t)

/-- Outside rehearsal every step leaves each contact state equal to the accepted level read through the
door's polarity. -/
def Obligations.EveryStepKeepsContactsFollowing : Prop :=
  ∀ s t : State, ContactsFollow s → step s = .next t → ContactsFollow t

/-- Every step keeps a valid configuration complete, the gates running under a valid configuration only,
CLEARING free of records and event flags, and plant time and the rate term within their ranges. -/
def Obligations.EveryStepKeepsRunStateSound : Prop :=
  ∀ s t : State, ConfigSound s ∧ ClearingQuiet s ∧ TimeInRange s → step s = .next t →
    ConfigSound t ∧ ClearingQuiet t ∧ TimeInRange t

/-- Every step keeps the worker table in slot order and the badge index an exact, ordered index of it. -/
def Obligations.EveryStepKeepsTableIndexed : Prop :=
  ∀ s t : State, TableIndexed s → step s = .next t → TableIndexed t

/-- Every step keeps each zone's occupancy equal to the number of in-use records located there. -/
def Obligations.EveryStepKeepsZonesCounted : Prop :=
  ∀ s t : State, ZonesCounted s → step s = .next t → ZonesCounted t

/-- Short of a hard reset, CLOCK_VALID once set stays set, the bell pass time H never decreases under a
valid clock, and the rate term, within its range, moves only at a sync mark, by one unit at most. -/
def Obligations.ClockMovesByItsRules : Prop :=
  ∀ (c : Instr) (s t : State), (∀ (circuits : DoorPins) (fire : Bool), c ≠ .hardReset circuits fire) →
    exec c s = .next t →
    (s.clock.valid = true → t.clock.valid = true ∧ s.bells.passed ≤ t.bells.passed) ∧
    (c ≠ .syncMark → t.clock.rho = s.clock.rho) ∧
    (TimeInRange s → (t.clock.rho - s.clock.rho).natAbs ≤ 1)

/-- The fire state moves only at an assertion, a deassertion in ALARM, an ACKFIRE in HOLD (the command, or
a 32-bit write to CTL with bit 4 set and bit 0 clear), and a hard reset. FIRE_OFF in ALARM moves it to
HOLD, hands over the FIRE_OFF record with the captured fire time, raises FIRE_OFF, makes every EVACUATE
circuit IDLE, and changes nothing else, so the doors stay in EGRESS. FIRE_OFF outside ALARM changes
nothing, which is the model's choice (notes/assumptions/6.md), and in CLEARING neither record nor event is
made, which the model reads from the rules (notes/assumptions/22.md). -/
def Obligations.FireStateMovesOnlyAtItsEvents : Prop :=
  (∀ (c : Instr) (s t : State), exec c s = .next t →
    t.fire.state = s.fire.state ∨
    (c = .fireOn ∧ t.fire.state = .alarm) ∨
    (c = .fireOff ∧ s.fire.state = .alarm ∧ t.fire.state = .hold) ∨
    ((c = .ackfire ∨
        ∃ v : Word, c = .registerWrite 0 32 v ∧ v.getLsbD 4 = true ∧ v.getLsbD 0 = false) ∧
      s.regs.run ≠ .clearing ∧ s.fire.state = .hold ∧ t.fire.state = .clear) ∨
    ∃ (circuits : DoorPins) (fire : Bool), c = .hardReset circuits fire) ∧
  ∀ s : State,
    (s.fire.state ≠ .alarm → exec .fireOff s = .next s) ∧
    (s.fire.state = .alarm →
      let held := { s with fire := { s.fire with state := .hold } }
      ∃ circuits : Vector Circuit 8,
        exec .fireOff s = .next
          (let told := raise .fireOff (report (.fireOff (s.fire.captured.getD ⟨0, 0⟩)) held)
          { told with bells := { s.bells with circuits := circuits } }) ∧
        (s.regs.run = .clearing →
          exec .fireOff s = .next { held with bells := { s.bells with circuits := circuits } }) ∧
        ∀ k : CircuitNo, circuits[k] =
          (if s.bells.circuits[k].isEvac = true then .idle else s.bells.circuits[k]))

/-! ### Reset and the run-state commands -/

/-- HARD_RESET leaves every block at its reset values in CLEARING; with FIRE_IN asserted at the release
every door is in EGRESS, every circuit evacuates, and the record of the assertion waits. The levels of
the contact circuits and of FIRE_IN are the command's operands, and the type, capacity and ceiling of a
zone not PRESENT are the model's choice (notes/assumptions/1.md), and so is that no finding stands at a door,
in a field that is the model's own (notes/assumptions/29.md). -/
def Obligations.HardResetGivesResetValues : Prop :=
  ∀ (circuits : DoorPins) (fire : Bool) (s : State), ∃ t : State,
    exec (.hardReset circuits fire) s = .next t ∧
    t.regs = ⟨.clearing, false, false, 0, 0, 0, 0⟩ ∧
    t.clock = ⟨⟨0, 0⟩, false, 0, 0, none, .unsynced, 0, 0, none, false⟩ ∧
    t.mode = ⟨false, false, false⟩ ∧ t.cal = ⟨[], 0, [], [], [], []⟩ ∧ t.table = ⟨none, [], []⟩ ∧
    (∀ l : LineNo, t.lines[l] = ⟨false, none, 0, false, none, ⟨.unused, 0⟩, [], none⟩) ∧
    (∀ i : Fin 15, t.zones[i] = ⟨false, .floor, 0, 0, 0, 0⟩) ∧
    (∀ d : DoorNo,
      t.doors[d].entry = ⟨0, 0, .card, .off, false, 5, 30, .nc, true, false, 0⟩ ∧
      t.doors[d].grant = none ∧ t.doors[d].mark = false ∧ t.doors[d].settle = none ∧
      t.doors[d].release = none ∧ t.doors[d].held = none ∧ t.doors[d].disagree = 0 ∧
      t.doors[d].found = none ∧ t.doors[d].alarmStart = none ∧ t.doors[d].openStart = none ∧
      t.doors[d].contact = (if circuits.getLsbD d.val = true then Contact.closed else Contact.open_) ∧
      t.doors[d].state = (if fire = true then DoorState.egress else DoorState.inactive) ∧
      t.doors[d].cmd = (if fire = true then Relay.released else Relay.locked)) ∧
    t.pay = ⟨[], [], 0, 0⟩ ∧ t.bells.plan = [] ∧ t.bells.passed = 0 ∧ t.bells.due = [] ∧
    (∀ c : CircuitNo,
      t.bells.circuits[c] = (if fire = true then Circuit.evacuate 0 else Circuit.idle)) ∧
    t.fire =
      (if fire = true then ⟨.alarm, some ⟨0, 0⟩, true, 255, some (⟨0, 0⟩, 0, false)⟩
      else ⟨.clear, none, false, 255, none⟩) ∧
    t.link = ⟨none, 0, 0, 0, [], 0, 0, 0, 0, false, none, none, none, none, none, 0⟩ ∧
    t.ram = s.ram ∧ t.pending = s.pending

/-- CLEAR_DONE ends CLEARING in HALTED; a FIRE_ON record and event deferred from CLEARING are made then,
the record into the empty holding queue. R181 says that it cannot arise in any other run state; that it
changes nothing there is the model's choice (notes/assumptions/6.md). -/
def Obligations.ClearDoneEntersHalted : Prop :=
  ∀ s : State,
    (s.regs.run ≠ .clearing → exec .clearDone s = .next s) ∧
    (s.regs.run = .clearing → s.fire.deferred = none →
      exec .clearDone s = .next { s with regs := { s.regs with run := .halted } }) ∧
    ∀ (at_ : Stamp) (lapses : Nat) (again : Bool),
      s.regs.run = .clearing → s.fire.deferred = some (at_, lapses, again) →
      s.link.queue = [] → s.link.reserved = 0 → s.link.holdGap = 0 → s.link.lost = 0 →
      s.table.capacity = none →
      exec .clearDone s = .next { s with
        fire := { s.fire with deferred := none }
        link := { s.link with
          queue := [⟨s.link.seq, at_, .fireOn .clearing lapses again, s.link.draws⟩]
          seq := (s.link.seq + 1) % 65536
          draws := s.link.draws + 1 }
        regs := { s.regs with run := .halted, events := s.regs.events ||| 0x110#12 } }

/-- HALT: nothing in CLEARING and HALTED; in LOADING the load is abandoned, the configuration invalid
and the RUN mark dropped, with the worker table kept or cleared, told by an operand that is the model's choice
(notes/assumptions/9.md); in RUNNING and ISOLATED every grant ends, every door not in EGRESS becomes INACTIVE,
every sounding ends, and the request in progress, the muster write and the polls end. The request is
returned HALTED_PARTIAL, at once in RUNNING and as a pending return in ISOLATED: a statement with the records
written and the first slot not written, its held copy undone with RESET, a READ_STATUS with 0 and 0, a forced
WITHDRAW and a CLEAR_FAULT with count 0. Each grant then has its LAPSED record of cause HALT, in door order,
and gives back its reservations. The request taken by POLL and not yet carried out, its numbers and the free
ones are the model's choice (notes/assumptions/25.md), and so is that the due marks of deadlines go
(notes/assumptions/21.md). A muster write in RUNNING, which stops after a free number of entries
(notes/assumptions/40.md), is left out of the exact clause. -/
def Obligations.HaltStopsTheGates : Prop :=
  ∀ (begun : Bool) (s : State),
    (s.regs.run = .clearing ∨ s.regs.run = .halted → exec (.halt begun) s = .next s) ∧
    (s.regs.run = .loading →
      exec (.halt false) s =
        .next { s with regs := { s.regs with run := .halted, configValid := false, runMark := false } } ∧
      ∃ t : State, exec (.halt begun) s = .next t ∧
        t.regs = { s.regs with run := .halted, configValid := false, runMark := false } ∧
        ((t.table = s.table ∧ t.zones = s.zones) ∨
          (t.table.workers = [] ∧ t.table.index = [] ∧ ∀ i : Fin 15, t.zones[i].occupancy = 0)) ∧
        t.clock = s.clock ∧ t.doors = s.doors ∧ t.lines = s.lines ∧ t.bells = s.bells ∧
        t.fire = s.fire ∧ t.link = s.link ∧ t.ram = s.ram) ∧
    (s.regs.run = .running ∨ s.regs.run = .isolated →
      ∃ t : State, exec (.halt begun) s = .next t ∧
        t.regs.run = .halted ∧ t.regs.configValid = s.regs.configValid ∧
        t.link.request = none ∧ t.link.muster = none ∧ t.link.pollTimer = none ∧
        (∀ d : DoorNo, t.doors[d].grant = none ∧ t.doors[d].mark = s.doors[d].mark ∧
          (s.doors[d].state = .egress → t.doors[d].state = .egress) ∧
          (s.doors[d].state ≠ .egress → t.doors[d].state = .inactive ∧ t.doors[d].cmd = .locked ∧
            t.doors[d].release = none ∧ t.doors[d].held = none ∧ t.doors[d].alarmStart = none)) ∧
        (∀ c : CircuitNo,
          (∀ phase : Nat, s.bells.circuits[c] = .evacuate phase →
            t.bells.circuits[c] = .evacuate phase) ∧
          (s.bells.circuits[c].isEvac = false → t.bells.circuits[c] = .idle)) ∧
        (s.link.muster.isSome = true → fireActive s = true → t.fire.musterPending = true) ∧
        t.table.index = s.table.index ∧ t.table.capacity = s.table.capacity ∧
        (∀ i : Fin 15, t.zones[i].occupancy = s.zones[i].occupancy) ∧
        t.clock = s.clock ∧ t.mode = s.mode ∧ t.cal = s.cal ∧ t.pay = s.pay ∧ t.lines = s.lines) ∧
    (s.regs.run = .running ∨ s.regs.run = .isolated → s.linkAnswers = [] →
      s.link.muster = none ∨ s.regs.run = .isolated →
      let halted := { s with regs := { s.regs with run := .halted } }
      let dropped := { halted with link := { s.link with output := none } }
      let ended : State → Prop := fun u =>
        let lapsed := (List.finRange 12).foldl (fun v d => s.doors[d].grant.elim v fun g =>
          handOver true s.clock.now
            (.lapsed g.slot ((workerAt s g.slot).elim 0 (·.badge)) d g.line g.inward g.kind .halt
              g.time) v) u
        ∃ t : State, exec (.halt begun) s = .next t ∧
          t.link = { lapsed.link with muster := none, pollTimer := none } ∧
          t.ram = u.ram ∧ t.regs = lapsed.regs ∧
          t.table = { u.table with workers := u.table.workers.map fun e =>
            (e.1, { e.2 with interval := e.2.interval.map fun i => { i with due := false } }) } ∧
          ∀ i : Fin 15, t.zones[i] = { s.zones[i] with
            reserved := s.zones[i].reserved -
              s.doors.toList.countP (fun e => e.grant.any fun g => g.target.val == i.val + 1) }
      (s.link.request = none → ended halted) ∧
      ∀ (q : Request) (su : Setup), s.link.request = some q → s.link.setup = some su →
        let back : Option Nat → Option Nat → State → Prop := fun count resume u =>
          ended (if s.regs.run = .running then
            answered su q.notify .haltedPartial count resume u
          else { u with link := { u.link with
            request := none
            ret := some ⟨.haltedPartial, count, resume, q.notify, u.link.draws⟩
            draws := u.link.draws + 1 } })
        (∀ (first last : Nat) (reset : Bool) (out : OutArea), q.stage = .output →
          q.req = .statement first last reset out →
          ((∀ r : StatementRec, s.link.output ≠ some (.statement r)) →
            back (some q.written) (some ((nextInUse s q.cursor last).getD 0xFFFF)) dropped) ∧
          ∀ r : StatementRec, s.link.output = some (.statement r) →
            (r.reset = false → back (some q.written) (some r.slot) dropped) ∧
            ∀ w : Worker, r.reset = true → workerAt s r.slot = some w →
              let cut := decide (65535 < w.reg + r.reg ∨ 65535 < w.night + r.night ∨
                65535 < w.ot + r.ot ∨ 65535 < w.hol + r.hol)
              back (some q.written) (some r.slot) (setWorker r.slot { w with
                reg := min 65535 (w.reg + r.reg)
                night := min 65535 (w.night + r.night)
                ot := min 65535 (w.ot + r.ot)
                hol := min 65535 (w.hol + r.hol)
                saturated := w.saturated || r.saturated || cut } dropped)) ∧
        (∀ out : OutArea, q.stage = .output → q.req = .readStatus out →
          back (some 0) (some 0) dropped) ∧
        (∀ (slot : Nat) (out : OutArea), q.stage = .output → q.req = .withdraw slot true out →
          back (some 0) none dropped) ∧
        (q.stage = .deferred → back (some 0) (some 0) halted) ∧
        (q.stage = .checking → back (some 0) none halted) ∧
        (∀ (first last : Nat) (reset : Bool) (out : OutArea), q.stage = .taken →
          q.req = .statement first last reset out →
          back (some 0) (some ((nextInUse s first last).getD 0xFFFF)) halted) ∧
        (∀ out : OutArea, q.stage = .taken → q.req = .readStatus out →
          back (some 0) (some 0) halted) ∧
        (∀ (slot : Nat) (out : OutArea), q.stage = .taken → q.req = .withdraw slot true out →
          back (some 0) none halted) ∧
        (∀ (slot : Nat) (out : OutArea), q.stage = .taken → q.req = .withdraw slot false out →
          back none none halted) ∧
        (∀ door : Nat, q.stage = .taken → q.req = .clearFault door → back (some 0) none halted) ∧
        (q.stage = .taken → outputArea q.req = none →
          (∀ door : Nat, q.req ≠ .clearFault door) → back none none halted))

/-- LOAD in HALTED empties the tables and starts the load, its result word IN_PROGRESS; a SETUP_ADDR off
a multiple of 64 fails it at once, with nothing written by the part. In any other run state only the
host's own writes stand. The writes of the host are an operand, which is the model's choice
(notes/assumptions/2.md). That no settle check or disagreement stands after the start is what the model reads
from R85, against the worked reload of 11.2 (notes/assumptions/11.md), and that a finding reached before it
stands on is its choice (notes/assumptions/29.md). -/
def Obligations.LoadStartEmptiesTables : Prop :=
  ∀ (withRun : Bool) (host : HostWrites) (s : State),
    (s.regs.run ≠ .halted →
      exec (.load withRun host) s = .next { s with ram := hostWrite s.ram host }) ∧
    (s.regs.run = .halted → s.regs.setupAddr.toNat % 64 ≠ 0 →
      ∃ t : State, exec (.load withRun host) s = .next t ∧ TablesEmptied s t ∧
        t.regs.run = .halted ∧ t.regs.configValid = false ∧ flagSet .loadFailed t = true ∧
        t.ram = hostWrite s.ram host) ∧
    (s.regs.run = .halted → s.regs.setupAddr.toNat % 64 = 0 → s.linkAnswers = [] →
      ∃ t : State, exec (.load withRun host) s = .next t ∧ TablesEmptied s t ∧
        t.regs.run = .loading ∧ t.regs.configValid = false ∧ t.regs.runMark = withRun ∧
        t.ram = writeBytes (hostWrite s.ram host) s.regs.setupAddr 0 [1, 0, 0, 0])

/-- LOAD_COMPLETE. The tests of the setup block in their order, with code, table and entry; the table and
entry named where the rules leave them open are read from them (notes/assumptions/19.md). The first table
entry that fails its test writes the result word with its code, table and index and ends the load. A
roster entry that fails R32, a repeated slot or badge among them, does so too, with the table cleared and
the new W in force. A load that passes puts in force the tables, the exception list among them, the mode
word, the setup values and W; with ROSTER_RELOAD the table holds exactly the roster's workers, all in zone
0, and without it the old ones, deadlines derived again; plant time is kept or set, LOAD_DONE is raised,
the result word is OK, and the part is HALTED, or RUNNING when the load was ordered with RUN. That the step
of such a load prunes the list it has just loaded is the model's choice (notes/assumptions/32.md), and so
are the host's writes as an operand (notes/assumptions/2.md). -/
def Obligations.LoadSuccessPutsTablesInForce : Prop :=
  ∀ (host : HostWrites) (s : State),
    let m := hostWrite s.ram host
    let b := readSetup m s.regs.setupAddr
    let cal := loadCalendar m b
    let entry : Nat → EnrolParams := fun k => readEnrol m b.roster (16 * k)
    let fits : Nat → Prop := fun k =>
      let p := entry k
      (assignmentOf cal p.assignKind p.assignNo).isSome = true ∧ p.slot < b.capacity ∧
        1 ≤ p.badge ∧ p.badge < 4294967295 ∧ p.issue ≤ 15 ∧ p.rule ≤ 7 ∧ p.grade ≤ 31 ∧
        p.profile ≤ 63 ∧ p.clearance ≤ 3 ∧
        ∀ j < k, (entry j).slot ≠ p.slot ∧ (entry j).badge ≠ p.badge
    let failed : LoadCode → TableId → Nat → State := fun code table k => { s with
      ram := writeBytes m s.regs.setupAddr 0 ([byteOf code.code, byteOf table.code] ++ le16 k)
      regs := { s.regs with
        run := .halted
        configValid := false
        runMark := false
        events := s.regs.events ||| 0x002#12 } }
    let rederived : OpenInterval → OpenInterval := fun i =>
      { i with deadline := deadlineOf b.inForce.openLimit i.captured i.tIn }
    let here : LoadCode → Option LoadFault := fun code => some ⟨code, .setup, 0⟩
    s.regs.run = .loading → s.linkAnswers = [] →
    firstFault (setupTests s b) =
      (if b.capacity < 256 ∨ 3840 < b.capacity ∨ b.capacity % 256 ≠ 0 then here .length
      else if b.reload = false ∧ s.table.capacity ≠ none ∧ s.table.capacity ≠ some b.capacity then
        here .capacityChange
      else if 4096 - b.capacity < s.link.queue.length then here .capacityChange
      else if (b.time = 4294967295 ∧ s.clock.valid = false) ∨
          (b.time ≠ 4294967295 ∧ 2831155199 < b.time) then here .noTime
      else if b.workList.toNat % 64 ≠ 0 then here .align
      else if b.workLog < 2 ∨ 8 < b.workLog then here .length
      else if b.journal.toNat % 32 ≠ 0 then here .align
      else if b.journalLog < 4 ∨ 12 < b.journalLog then here .length
      else if b.musterArea.toNat % 4 ≠ 0 then here .align
      else if b.roster.toNat % 4 ≠ 0 ∨ b.zone.toNat % 4 ≠ 0 ∨ b.door.toNat % 4 ≠ 0 ∨
          b.reader.toNat % 4 ≠ 0 ∨ b.shift.toNat % 4 ≠ 0 ∨ b.rota.toNat % 4 ≠ 0 ∨
          b.payRule.toNat % 4 ≠ 0 ∨ b.grade.toNat % 4 ≠ 0 ∨ b.dayType.toNat % 4 ≠ 0 ∨
          b.week.toNat % 4 ≠ 0 ∨ b.exceptions.toNat % 4 ≠ 0 ∨ b.bellPlan.toNat % 4 ≠ 0 then
        here .align
      else if b.reload = true ∧ b.capacity < b.rosterCount then some ⟨.length, .roster, b.capacity⟩
      else if 64 < b.exceptionCount then some ⟨.length, .exceptions, 64⟩
      else if 128 < b.bellCount then some ⟨.length, .bellPlan, 128⟩
      else none) ∧
    (firstFault (setupTests s b) = none →
      (∀ (e : EntryRead) (code : LoadCode),
        (allReads m b).find? (·.fault.isSome) = some e → e.fault = some code →
        exec (.loadComplete host) s = .next (failed code e.table e.entry)) ∧
      ((allReads m b).all (·.fault.isNone) = true →
        (∀ k < b.rosterCount, b.reload = true → (∀ j < k, fits j) → ¬ fits k →
          exec (.loadComplete host) s = .next { failed .roster .roster k with
            table := ⟨some b.capacity, [], []⟩
            zones := s.zones.map fun z => { z with occupancy := 0 } }) ∧
        (s.link.request = none → (b.reload = true → ∀ k < b.rosterCount, fits k) →
          ∃ t : State, exec (.loadComplete host) s = .next t ∧
            t.regs.run = (if s.regs.runMark = true then RunState.running else RunState.halted) ∧
            t.regs.configValid = true ∧ t.regs.runMark = false ∧ flagSet .loadDone t = true ∧
            t.mode = b.modeWord ∧ t.pay = loadPay m b ∧ t.bells.plan = loadPlan m b ∧
            t.bells.passed = (if b.time = 4294967295 then s.bells.passed
              else if s.clock.valid = true then max s.bells.passed b.time else b.time) ∧
            t.cal = { cal with exceptions :=
              if s.clock.valid = true ∧ b.time ≠ 4294967295 ∧
                  s.clock.now.sec / 86400 < b.time / 86400 then
                cal.exceptions.filter fun e => b.time / 86400 ≤ e.1 + 7
              else cal.exceptions } ∧
            t.link.setup = some b.inForce ∧ t.table.capacity = some b.capacity ∧
            (b.reload = false → t.table.index = s.table.index ∧
              (s.regs.runMark = false → t.table.workers = s.table.workers.map fun e =>
                (e.1, { e.2 with interval := e.2.interval.map rederived }))) ∧
            (b.reload = true →
              t.table.workers.length = b.rosterCount ∧ t.table.index.length = b.rosterCount ∧
              ∀ k < b.rosterCount, let p := entry k
                lookupBadge p.badge t.table.index = some p.slot ∧
                workerAt t p.slot = some
                  { badge := p.badge, issue := p.issue,
                    assignment := (assignmentOf cal p.assignKind p.assignNo).getD .none_,
                    rule := p.rule, grade := p.grade, profile := p.profile,
                    clearance := p.clearance, suspended := p.suspended, unschedOk := p.unschedOk,
                    location := 0, interval := none, lastKey := none, cday := 0,
                    breakTaken := false, lastEOut := 0, reg := 0, night := 0, ot := 0, hol := 0,
                    saturated := false, muster := false }) ∧
            (∀ l : LineNo, t.lines[l] = { s.lines[l] with desc := readReader m b.reader l.val }) ∧
            (∀ i : Fin 15, t.zones[i] = { readZone m b.zone i.val s.zones[i] with
              occupancy := if b.reload = true then 0 else s.zones[i].occupancy }) ∧
            (∀ d : DoorNo,
              t.doors[d].entry = readDoor m b.door d.val ∧ t.doors[d].mark = s.doors[d].mark) ∧
            t.fire.evacMask = BitVec.ofNat 8 b.evacMask ∧ t.fire.state = s.fire.state ∧
            t.clock.valid = true ∧ t.clock.rho = s.clock.rho ∧
            t.clock.now = (if b.time = 4294967295 then s.clock.now else ⟨b.time, 0⟩) ∧
            (s.regs.runMark = false → t.ram = writeBytes m s.regs.setupAddr 0 [0, 0, 0, 0]))))

/-- LOAD_COMPLETE of a load whose setup block fails a test: the first failing test decides the result
word; the part is HALTED with the configuration invalid and LOAD_FAILED raised, and nothing else
changes. That the end of a load outside LOADING does nothing of its own is the model's choice
(notes/assumptions/6.md), and so are the host's writes as an operand, which alone stand there
(notes/assumptions/2.md). -/
def Obligations.LoadFailureWritesResultWord : Prop :=
  ∀ (host : HostWrites) (s : State) (f : LoadFault),
    let m := hostWrite s.ram host
    (s.regs.run ≠ .loading → exec (.loadComplete host) s = .next { s with ram := m }) ∧
    (s.regs.run = .loading → s.linkAnswers = [] →
      firstFault (setupTests s (readSetup m s.regs.setupAddr)) = some f →
      exec (.loadComplete host) s = .next { s with
        ram := writeBytes m s.regs.setupAddr 0
          ([byteOf f.code.code, byteOf f.table.code] ++ le16 f.entry)
        regs := { s.regs with
          run := .halted
          configValid := false
          runMark := false
          events := s.regs.events ||| 0x002#12 } })

/-- RUN: from HALTED with a valid configuration every door is recomputed and the part runs, a worker whose
deadline is at or before the entry is closed where there is room, and one whose deadline is ahead stays
ON; from ISOLATED it runs again with no door changed; the poll timer starts afresh in both. In any other case
only the host's own writes stand, an operand by the model's choice (notes/assumptions/2.md). The marks that
counting sets on deadlines are its choice too (notes/assumptions/6.md), and that the entry drops them and
goes by the times alone is what it reads from R114 (notes/assumptions/21.md). -/
def Obligations.RunRecomputesTheDoors : Prop :=
  ∀ (host : HostWrites) (s : State),
    (s.regs.run = .clearing ∨ s.regs.run = .loading ∨ s.regs.run = .running ∨
        (s.regs.run = .halted ∧ s.regs.configValid = false) →
      exec (.run host) s = .next { s with ram := hostWrite s.ram host }) ∧
    (s.regs.run = .halted → s.regs.configValid = true → s.linkAnswers = [] →
      ∃ t : State, exec (.run host) s = .next t ∧ t.regs.run = .running ∧
        t.link.pollTimer = s.link.setup.map (·.poll) ∧
        (∀ d : DoorNo,
          t.doors[d].state =
            (if fireActive s = true then DoorState.egress else restingState s.doors[d]) ∧
          (t.doors[d].state = .open_ → t.doors[d].held = some (s.doors[d].entry.heldLimit * 16) ∧
            t.doors[d].openStart = some s.clock.now) ∧
          t.doors[d].entry = s.doors[d].entry ∧ t.doors[d].contact = s.doors[d].contact) ∧
        (∀ (slot : Nat) (w : Worker) (i : OpenInterval), workerAt s slot = some w →
          w.interval = some i → grantNames s slot = false → s.link.request = none →
          s.table.workers.Pairwise (fun a b => a.1 < b.1) →
          (slotsByDeadline (fun j => j.deadline ≤ s.clock.now.sec) s = [slot] → hasRoom s = true →
            workerAt t slot = some (closing s.cal s.pay w i none).1) ∧
          (s.clock.now.sec < i.deadline → i.waiting = false →
            workerAt t slot = some { w with interval := some { i with due := false } })) ∧
        t.clock = s.clock ∧ t.mode = s.mode ∧ t.cal = s.cal ∧ t.lines = s.lines ∧ t.bells = s.bells) ∧
    (s.regs.run = .isolated → s.linkAnswers = [] →
      ∃ t : State, exec (.run host) s = .next t ∧ t.regs.run = .running ∧
        t.link.pollTimer = s.link.setup.map (·.poll) ∧ t.doors = s.doors ∧ t.clock = s.clock ∧
        t.mode = s.mode ∧ t.cal = s.cal ∧ t.lines = s.lines ∧ t.bells = s.bells)

/-- A poll, by the timer or by NUDGE: in RUNNING with nothing to drain and nothing in progress it
restarts the poll timer and takes the slot at the position if it is POSTED, and answers a kind that
is no request KIND_UNKNOWN at once; outside RUNNING only the host's own writes stand. Four points are the
model's choice: the host's writes as an operand (notes/assumptions/2.md), POLL outside RUNNING, where no poll
timer runs (notes/assumptions/6.md), the free count and resume index of KIND_UNKNOWN
(notes/assumptions/4.md), and the request's own command, which carries it out (notes/assumptions/7.md). -/
def Obligations.PollTakesThePostedSlot : Prop :=
  ∀ (c : Instr) (host : HostWrites) (s : State) (su : Setup), c = .poll host ∨ c = .nudge host →
    let m := hostWrite s.ram host
    let off := 64 * s.link.workPos
    let polled := { s with ram := m, link := { s.link with pollTimer := some su.poll } }
    (s.regs.run ≠ .running → exec c s = .next { s with ram := m }) ∧
    (ReadyFor s su → s.link.queue = [] → waitingSlots s = [] →
      (readByte m su.workList off ≠ 0x5A → exec c s = .next polled) ∧
      (readByte m su.workList off = 0x5A → readRequest m su.workList off = none →
        exec c s = .next
          (answered su (readNotify m su.workList off) .kindUnknown none none polled)) ∧
      ∀ r : Req, readByte m su.workList off = 0x5A → readRequest m su.workList off = some r →
        exec c s = .next { polled with
          link := { polled.link with
            request := some ⟨r, readNotify m su.workList off, .taken, 0, 0⟩ } })

/-- ACKFIRE is accepted in HOLD only, and not in CLEARING: the fire state becomes CLEAR, a pending muster
list is dropped, every muster flag is cleared, every door recomputed, and the FIRE_ACK record handed over
with the captured time, the number of muster flags cleared, and MUSTER_UNWRITTEN where a list was
dropped. -/
def Obligations.AckfireEndsTheHold : Prop :=
  ∀ s : State,
    (s.regs.run = .clearing ∨ s.fire.state ≠ .hold → exec .ackfire s = .next s) ∧
    (s.regs.run ≠ .clearing → s.fire.state = .hold →
      let fire := { s.fire with state := .clear, musterPending := false }
      let table := { s.table with
        workers := s.table.workers.map fun e => (e.1, { e.2 with muster := false }) }
      ∃ (t : State) (doors : Vector Door 12), exec .ackfire s = .next t ∧
        t = report (.fireAck (s.fire.captured.getD ⟨0, 0⟩)
            (s.table.workers.filter fun e => e.2.muster).length s.fire.musterPending)
          { s with fire := fire, table := table, doors := doors } ∧
        t.fire = fire ∧ t.table = table ∧
        (∀ d : DoorNo,
          t.doors[d].state =
            (if gatesRun s = true then restingState s.doors[d] else DoorState.inactive) ∧
          t.doors[d].mark = s.doors[d].mark ∧ t.doors[d].contact = s.doors[d].contact) ∧
        t.clock = s.clock ∧ t.mode = s.mode ∧ t.cal = s.cal ∧ t.lines = s.lines ∧
        t.zones = s.zones ∧ t.pay = s.pay ∧ t.bells = s.bells)

/-- The register window: a write is disregarded in CLEARING and at fewer than 32 bits; the five command
bits of CTL act as their commands do; SETUP_ADDR is replaced in HALTED only; a write to EVENTS clears
the flags whose bits are one, and the fill count with JOURNAL, whether or not that flag was set, which is the
model's choice (notes/assumptions/45.md); EVENT_EN and EVENT_LINE keep bits 0
to 11; PLANT_TIME, the two places above it and every offset that is no register's take nothing. A read of
CTL shows the run state, CONFIG_VALID, CLOCK_VALID, the sync state, the fire input and the egress hold in
their bits, one of SETUP_ADDR, EVENTS, EVENT_EN and EVENT_LINE the register, one of PLANT_TIME the plant
second, or 0 while the clock is invalid, and one of 0x18 to 0x1F shows 0. IRQ_A is high while a cause is set,
enabled and not on the other line, IRQ_B while one is set, enabled and on it. A read has no command: it is
what readRegister gives, and the fire input is read from the fire state, both the model's choice
(notes/assumptions/30.md). Three more clauses are its choice: that a write off a register's own offset below 0x18, or above the window,
changes nothing (notes/assumptions/12.md); that a HALT in LOADING written to CTL comes before the roster
step, as HALT with its operand false does (notes/assumptions/9.md); and that LOAD, RUN and NUDGE written
to CTL carry no writes of the host (notes/assumptions/2.md). -/
def Obligations.RegisterWritesActByOffset : Prop :=
  ∀ (s : State) (v : Word),
    let cleared := { s with
      regs := { s.regs with events := s.regs.events &&& ~~~(v.setWidth 12) }
      link := { s.link with fill := if v.getLsbD 3 = true then 0 else s.link.fill } }
    (∀ offset width : Nat, s.regs.run = .clearing ∨ width ≠ 32 →
      exec (.registerWrite offset width v) s = .next s) ∧
    (s.regs.run = .clearing → exec (.eventsClear v) s = .next s) ∧
    (s.regs.run ≠ .clearing →
      exec (.registerWrite 0x00 32 0x00) s = .next s ∧
      exec (.registerWrite 0x00 32 0x01) s = exec (.halt false) s ∧
      exec (.registerWrite 0x00 32 0x02) s = exec (.load false []) s ∧
      exec (.registerWrite 0x00 32 0x06) s = exec (.load true []) s ∧
      exec (.registerWrite 0x00 32 0x04) s = exec (.run []) s ∧
      exec (.registerWrite 0x00 32 0x08) s = exec (.nudge []) s ∧
      exec (.registerWrite 0x00 32 0x10) s = exec .ackfire s ∧
      exec (.registerWrite 0x00 32 0x1F) s = exec (.halt false) s ∧
      exec (.registerWrite 0x04 32 v) s =
        .next (if s.regs.run = .halted then { s with regs := { s.regs with setupAddr := v } } else s) ∧
      exec (.registerWrite 0x08 32 v) s = .next cleared ∧
      exec (.eventsClear v) s = .next cleared ∧
      exec (.registerWrite 0x0C 32 v) s =
        .next { s with regs := { s.regs with eventEn := v.setWidth 12 } } ∧
      exec (.registerWrite 0x10 32 v) s =
        .next { s with regs := { s.regs with eventLine := v.setWidth 12 } } ∧
      ∀ offset : Nat, 0x14 ≤ offset ∨ offset % 4 ≠ 0 →
        exec (.registerWrite offset 32 v) s = .next s) ∧
    (let ctl := readRegister s 0x00
    ctl.toNat % 8 = s.regs.run.code ∧ ctl.getLsbD 3 = false ∧ ctl.getLsbD 4 = s.regs.configValid ∧
    ctl.getLsbD 5 = s.clock.valid ∧ ctl.toNat / 64 % 4 = s.clock.sync.code ∧
    (ctl.getLsbD 8 = true ↔ s.fire.state = .alarm) ∧
    (ctl.getLsbD 9 = true ↔ s.fire.state = .alarm ∨ s.fire.state = .hold) ∧ ctl.toNat < 1024) ∧
    readRegister s 0x04 = s.regs.setupAddr ∧
    readRegister s 0x08 = s.regs.events.setWidth 32 ∧
    readRegister s 0x0C = s.regs.eventEn.setWidth 32 ∧
    readRegister s 0x10 = s.regs.eventLine.setWidth 32 ∧
    (s.clock.valid = false → readRegister s 0x14 = 0) ∧
    (s.clock.valid = true → s.clock.now.sec ≤ Config.lastSecond →
      (readRegister s 0x14).toNat = s.clock.now.sec) ∧
    (∀ offset : Nat, 0x18 ≤ offset → offset ≤ 0x1F → readRegister s offset = 0) ∧
    (irqA s = true ↔ ∃ k : Fin 12, s.regs.events.getLsbD k.val = true ∧
      s.regs.eventEn.getLsbD k.val = true ∧ s.regs.eventLine.getLsbD k.val = false) ∧
    (irqB s = true ↔ ∃ k : Fin 12, s.regs.events.getLsbD k.val = true ∧
      s.regs.eventEn.getLsbD k.val = true ∧ s.regs.eventLine.getLsbD k.val = true)

/-- An error response on the memory link: in RUNNING the part becomes ISOLATED and LINK_ERROR is raised,
and a muster write keeps the entries it has written and the position of its next; in LOADING the load fails
with LINK, its result word naming the setup block, or the table and entry being read, and at a roster entry
the table is cleared with the new W in force; in HALTED
it can meet the write of a pending return only; elsewhere nothing is in flight. Answers listed ahead
change nothing by themselves (notes/assumptions/8.md). -/
def Obligations.LinkErrorIsolates : Prop :=
  ∀ (n : Nat) (answers : List Bool) (s : State),
    exec (.linkError (.ahead answers)) s = .next { s with linkAnswers := answers } ∧
    (s.regs.run = .running → s.link.muster = none →
      exec (.linkError (.inFlight n)) s = .next { s with
        regs := { s.regs with run := .isolated, events := s.regs.events ||| 0x040#12 } }) ∧
    (∀ m : MusterWrite, s.regs.run = .running → s.link.muster = some m →
      ∃ t : State, exec (.linkError (.inFlight n)) s = .next t ∧ t.regs.run = .isolated ∧
        flagSet .linkError t = true ∧ t.linkAnswers = s.linkAnswers ∧
        t.link = { s.link with
          muster := some { m with next := m.next + min n (m.count - m.next) } } ∧
        t.ram = writeBytes s.ram m.area (16 + 8 * m.next)
          ((((m.entries.take m.count).drop m.next).take n).flatMap MusterEntry.bytes) ∧
        t.clock = s.clock ∧ t.table = s.table ∧ t.doors = s.doors ∧ t.fire = s.fire) ∧
    (s.regs.run = .loading → s.linkAnswers = [] →
      exec (.linkError (.inFlight 0)) s = .next { s with
        ram := writeBytes s.ram s.regs.setupAddr 0 [14, 0, 0, 0]
        regs := { s.regs with
          run := .halted
          configValid := false
          runMark := false
          events := s.regs.events ||| 0x042#12 } }) ∧
    (let b := readSetup s.ram s.regs.setupAddr
    let reads := allReads s.ram b
    let failed : TableId → Nat → State := fun table entry => { s with
      ram := writeBytes s.ram s.regs.setupAddr 0 ([14, byteOf table.code] ++ le16 entry)
      regs := { s.regs with
        run := .halted
        configValid := false
        runMark := false
        events := s.regs.events ||| 0x042#12 } }
    s.regs.run = .loading → s.linkAnswers = [] → firstFault (setupTests s b) = none →
      (∀ (k : Nat) (e : EntryRead), reads[k]? = some e →
        (reads.take k).all (·.fault.isNone) = true →
        exec (.linkError (.inFlight (k + 1))) s = .next (failed e.table e.entry)) ∧
      (reads.all (·.fault.isNone) = true →
        (∀ k < b.rosterCount, b.reload = true → (∀ j < k, RosterFits s.ram b j) →
          exec (.linkError (.inFlight (reads.length + 1 + k))) s = .next { failed .roster k with
            table := ⟨some b.capacity, [], []⟩
            zones := s.zones.map fun z => { z with occupancy := 0 } }) ∧
        (b.reload = false → exec (.linkError (.inFlight (reads.length + 1))) s =
          .next (failed .setup 0)))) ∧
    (s.regs.run = .halted →
      exec (.linkError (.inFlight n)) s = .next (if s.link.ret.isSome = true then
        { s with regs := { s.regs with events := s.regs.events ||| 0x040#12 } } else s)) ∧
    (s.regs.run = .clearing ∨ s.regs.run = .isolated →
      exec (.linkError (.inFlight n)) s = .next s)

/-! ### The plant clock -/

/-- A beat ends: in CLEARING nothing counts, which the model reads from the rules
(notes/assumptions/20.md). Else plant time, while valid and short of the end of its range, goes one beat
on; at a new second come the midnight's pruning, the move of H, and, while the gates run, the plan entries at
that instant on the list for BELL_ENTRY_REACHED and the deadlines that equal it marked for DEADLINE_REACHED;
otherwise plant time stays. The block index, the slew, the holdover timer, the doors' timers, the
lines' supervision and the circuits count either way, and a supervised door with no settle check running
counts a disagreement up or back to 0. A mismatch at the fourth beat end of a settle check, or a fourth in a
row, is a finding, and the door keeps its kind with the command and the readback compared. That an expiry
and a finding wait for their own commands, with the door, the sync state and the queue as they were, is the
model's choice (notes/assumptions/6.md), and so is that none is found while the mark is set or another stands
(notes/assumptions/29.md). -/
def Obligations.BeatEndCountsOn : Prop :=
  ∀ (readbacks : DoorPins) (s : State),
    (s.regs.run = .clearing → exec (.beatEnd readbacks) s = .next s) ∧
    (s.regs.run ≠ .clearing →
      let sec := s.clock.now.sec + 1
      let day := sec / 86400
      ∃ t : State, exec (.beatEnd readbacks) s = .next t ∧
        (s.clock.valid = true → ¬ (s.clock.now.sec = Config.lastSecond ∧ s.clock.now.beat = 15) →
          (s.clock.now.beat ≠ 15 →
            t.clock.now = ⟨s.clock.now.sec, s.clock.now.beat + 1⟩ ∧ t.cal = s.cal ∧
            t.bells.passed = s.bells.passed ∧ t.bells.due = s.bells.due ∧ t.table = s.table) ∧
          (s.clock.now.beat = 15 →
            t.clock.now = ⟨sec, 0⟩ ∧
            t.cal = { s.cal with exceptions :=
              if sec % 86400 = 0 then s.cal.exceptions.filter fun e => day ≤ e.1 + 7
              else s.cal.exceptions } ∧
            t.bells.passed = max s.bells.passed sec ∧
            t.bells.due = (if s.bells.passed < sec ∧ gatesRun s = true then
                s.bells.due ++ ((s.bells.plan.filter fun e => day * 86400 + e.sec == sec).map
                  fun e => (day, e))
              else s.bells.due) ∧
            t.table = { s.table with workers := s.table.workers.map fun e =>
              (e.1, { e.2 with interval := e.2.interval.map fun i =>
                { i with due := i.due || (gatesRun s && i.deadline == sec && !i.waiting) } }) })) ∧
        (s.clock.valid = false ∨ (s.clock.now.sec = Config.lastSecond ∧ s.clock.now.beat = 15) →
          t.clock.now = s.clock.now ∧ t.cal = s.cal ∧ t.bells.passed = s.bells.passed ∧
          t.bells.due = s.bells.due ∧ t.table = s.table) ∧
        t.clock.block = (s.clock.block + 1) % 4096 ∧ t.clock.holdover = s.clock.holdover - 1 ∧
        t.clock.slew = s.clock.slew.map
          (fun w => { w with left := w.left - 1, extra := w.extra - 1 }) ∧
        t.clock.valid = s.clock.valid ∧ t.clock.rho = s.clock.rho ∧ t.clock.sync = s.clock.sync ∧
        t.clock.lastDev = s.clock.lastDev ∧ t.clock.edge = s.clock.edge ∧
        t.clock.markReady = s.clock.markReady ∧
        (∀ d : DoorNo,
          let e := s.doors[d]
          let readback := if readbacks.getLsbD d.val = true then Relay.released else Relay.locked
          let differs := e.mark = false ∧ e.found = none ∧ readback ≠ e.cmd
          let settles := differs ∧ e.settle = some 1
          let drifts := differs ∧ e.entry.supervised = true ∧ e.settle = none ∧ 3 ≤ e.disagree
          t.doors[d] = { e with
            release := e.release.map (· - 1)
            held := e.held.map (· - 1)
            settle := if settles then none else e.settle.map (· - 1)
            readback := readback
            disagree :=
              if e.entry.supervised = false ∨ e.settle ≠ none then e.disagree
              else if readback = e.cmd ∨ 3 ≤ e.disagree then 0 else e.disagree + 1
            found := if settles then some ⟨.settle, e.cmd, readback⟩
              else if drifts then some ⟨.drift, e.cmd, readback⟩ else e.found }) ∧
        (∀ l : LineNo, t.lines[l] = { s.lines[l] with timer := s.lines[l].timer.map (· - 1) }) ∧
        (∀ c : CircuitNo, t.bells.circuits[c] = Circuit.beat s.bells.circuits[c]) ∧
        t.bells.plan = s.bells.plan ∧ t.mode = s.mode ∧ t.zones = s.zones ∧ t.pay = s.pay ∧
        t.fire = s.fire ∧ t.link = s.link ∧ t.regs = s.regs ∧ t.ram = s.ram)

/-- SLEW_END stops a slew whose last beat has ended; HOLDOVER_EXPIRY moves LOCKED to HOLDOVER when the
timer stands at 0, with its SYNC_STATE record and event; a leading edge takes the position of plant
time. An expiry that does not stand changes nothing (notes/assumptions/6.md). -/
def Obligations.ClockExpiriesAct : Prop :=
  ∀ s : State,
    (∀ w : Slew, s.clock.slew = some w → w.left = 0 →
      exec .slewEnd s = .next { s with clock := { s.clock with slew := none } }) ∧
    (∀ w : Slew, s.clock.slew = some w → w.left ≠ 0 → exec .slewEnd s = .next s) ∧
    (s.clock.slew = none → exec .slewEnd s = .next s) ∧
    (s.clock.sync = .locked → s.clock.holdover = 0 →
      exec .holdoverExpiry s = .next (raise .syncChange
        (report (.syncState .locked .holdover s.clock.rho s.clock.lastDev)
          { s with clock := { s.clock with sync := .holdover } }))) ∧
    (s.clock.sync ≠ .locked ∨ s.clock.holdover ≠ 0 → exec .holdoverExpiry s = .next s) ∧
    ∀ quiet : Bool, exec (.syncMarkLeadingEdge quiet) s = .next { s with clock := { s.clock with
      edge := some s.clock.now, markReady := s.clock.markReady || quiet } }

/-- The slew that a mark of 3 to 32 beats starts adds d × 2048 cycles in all over the 960 beats that
follow, and no beat of it is left then. -/
def Obligations.SlewRemovesTheWholeDeviation : Prop :=
  ∀ (d : Int) (c : Clock), 3 ≤ d.natAbs → d.natAbs ≤ 32 → c.slew = some (slewFor d) →
    (Finset.range 960).sum (fun k => slewShare (Clock.beat^[k] c)) = d * 2048 ∧
    (Clock.beat^[960] c).slew.map (·.left) = some 0

/-- SYNC_MARK: a pulse without its edge, or not released since the mark before, is no mark; an ignored
mark changes nothing but the mark in flight; a processed mark nudges the rate term, stores the
deviation, restarts the holdover timer, locks, with the SYNC_STATE record and event of a change made first,
and then acts by the deviation's size: nothing up to 2 beats, a slew up to 32, a step of cause SYNC to the
minute beyond, as SetTimeStepsTheClock gives every step. That the record carries the rate term and the
deviation as the mark leaves them is the model's choice (notes/assumptions/34.md), and so is that the
position of the edge stands through a SET_TIME taken before the mark (notes/assumptions/33.md). -/
def Obligations.SyncMarkDisciplinesTheClock : Prop :=
  ∀ (s : State) (pos : Stamp),
    let p : Int := ((pos.sec % 60 * 16 + pos.beat : Nat) : Int)
    let d : Int := if p < 480 then p else p - 960
    let end_ := s.clock.now.sec = Config.lastSecond ∧ s.clock.now.beat = 15
    (s.clock.edge = none ∨ s.clock.markReady = false → exec .syncMark s = .next s) ∧
    (s.clock.edge = some pos → s.clock.markReady = true →
      (s.regs.run = .clearing ∨ s.regs.run = .loading ∨ s.clock.valid = false ∨
          s.mode.syncEnable = false ∨ end_ →
        exec .syncMark s =
          .next { s with clock := { s.clock with edge := none, markReady := false } }) ∧
      (s.regs.run ≠ .clearing → s.regs.run ≠ .loading → s.clock.valid = true →
        s.mode.syncEnable = true → ¬ end_ →
        let rho := if 0 < d then min 255 (s.clock.rho + 1)
          else if d < 0 then max (-255) (s.clock.rho - 1) else s.clock.rho
        let taken := { s with clock := { s.clock with
          edge := none, markReady := false, slew := none, rho := rho, lastDev := d, holdover := 1200
          sync := .locked } }
        let locked := if s.clock.sync = .locked then taken
          else raise .syncChange (report (.syncState s.clock.sync .locked rho d) taken)
        (d.natAbs ≤ 2 → exec .syncMark s = .next locked) ∧
        (3 ≤ d.natAbs → d.natAbs ≤ 32 → exec .syncMark s = .next { locked with
          clock := { locked.clock with
            slew := some ⟨decide (0 < d), d.natAbs * 2048 / 960, 960, d.natAbs * 2048 % 960⟩ } }) ∧
        (33 ≤ d.natAbs → exec .syncMark s = .next (stepTo
          ⟨pos.sec / 60 * 60 + (if 0 ≤ d then 0 else 60), 0⟩ .sync locked)) ∧
        ∃ t : State, exec .syncMark s = .next t ∧
          t.clock.rho = (if 0 < d then min 255 (s.clock.rho + 1)
            else if d < 0 then max (-255) (s.clock.rho - 1) else s.clock.rho) ∧
          t.clock.lastDev = d ∧ t.clock.holdover = 1200 ∧ t.clock.sync = .locked ∧
          t.clock.block = s.clock.block ∧ t.clock.valid = true ∧ t.clock.edge = none ∧
          (s.clock.sync ≠ .locked → flagSet .syncChange t = true) ∧
          (d.natAbs ≤ 2 → t.clock.now = s.clock.now ∧ t.clock.slew = none) ∧
          (3 ≤ d.natAbs → d.natAbs ≤ 32 → t.clock.now = s.clock.now ∧
            t.clock.slew = some ⟨decide (0 < d), d.natAbs * 2048 / 960, 960, d.natAbs * 2048 % 960⟩) ∧
          (33 ≤ d.natAbs → t.clock.slew = none ∧ flagSet .clockStep t = true ∧
            t.clock.now =
              (let minute := pos.sec / 60 * 60 + (if 0 ≤ d then 0 else 60)
              if Config.lastSecond < minute then ⟨Config.lastSecond, 15⟩ else ⟨minute, 0⟩)) ∧
          t.mode = s.mode ∧ t.lines = s.lines ∧ t.zones = s.zones ∧ t.doors = s.doors ∧
          t.pay = s.pay ∧ t.fire = s.fire ∧ t.table.index = s.table.index))

/-! ### Requests to the worker table -/

/-- ENROL: a slot below W, a badge number that is neither 0 nor all-ones, fields in their ranges and an
assignment that passes, a free slot and a free badge create the record with the creation values and its
index pair; RANGE, SLOT_IN_USE and BADGE_IN_USE change nothing. -/
def Obligations.EnrolCreatesTheWorker : Prop :=
  ∀ (notify : Bool) (p : EnrolParams) (s : State) (su : Setup), ReadyFor s su →
    let fits := slotInRange s p.slot = true ∧ 1 ≤ p.badge ∧ p.badge < 4294967295 ∧ p.issue ≤ 15 ∧
      p.rule ≤ 7 ∧ p.grade ≤ 31 ∧ p.profile ≤ 63 ∧ p.clearance ≤ 3
    (assignmentOf s.cal p.assignKind p.assignNo = none ∨ ¬ fits →
      exec (.enrol notify p) s = .next (answered su notify .range (some 0) none s)) ∧
    ∀ a : Assignment, assignmentOf s.cal p.assignKind p.assignNo = some a → fits →
      ((workerAt s p.slot).isSome = true →
        exec (.enrol notify p) s = .next (answered su notify .slotInUse (some 0) none s)) ∧
      (workerAt s p.slot = none → (lookupBadge p.badge s.table.index).isSome = true →
        exec (.enrol notify p) s = .next (answered su notify .badgeInUse (some 0) none s)) ∧
      (workerAt s p.slot = none → lookupBadge p.badge s.table.index = none →
        exec (.enrol notify p) s = .next (answered su notify .done (some 0) none
          { s with table := { s.table with
              workers := putSlot p.slot
                { badge := p.badge, issue := p.issue, assignment := a, rule := p.rule,
                  grade := p.grade, profile := p.profile, clearance := p.clearance,
                  suspended := p.suspended, unschedOk := p.unschedOk, location := 0,
                  interval := none, lastKey := none, cday := 0, breakTaken := false,
                  lastEOut := 0, reg := 0, night := 0, ot := 0, hol := 0, saturated := false,
                  muster := false } s.table.workers
              index := insertBadge p.badge p.slot s.table.index } }))

/-- AMEND: RANGE, SLOT_EMPTY and BADGE_IN_USE write no field; otherwise each present field of the static
record is written, the other fields stay, and a new badge number takes its own place in the index. -/
def Obligations.AmendWritesThePresentFields : Prop :=
  ∀ (notify : Bool) (p : AmendParams) (s : State) (su : Setup), ReadyFor s su →
    let v := p.vals
    (amendInRange s p = false →
      exec (.amend notify p) s = .next (answered su notify .range (some 0) none s)) ∧
    (amendInRange s p = true → workerAt s v.slot = none →
      exec (.amend notify p) s = .next (answered su notify .slotEmpty (some 0) none s)) ∧
    ∀ w : Worker, amendInRange s p = true → workerAt s v.slot = some w →
      (∀ k : Nat, p.mask.getLsbD 0 = true → lookupBadge v.badge s.table.index = some k →
        k ≠ v.slot →
        exec (.amend notify p) s = .next (answered su notify .badgeInUse (some 0) none s)) ∧
      (p.mask.getLsbD 0 = false ∨ lookupBadge v.badge s.table.index = none ∨
          lookupBadge v.badge s.table.index = some v.slot →
        let badge := if p.mask.getLsbD 0 = true then v.badge else w.badge
        exec (.amend notify p) s = .next (answered su notify .done (some 0) none
          { s with table := { s.table with
              workers := putSlot v.slot { w with
                badge := badge
                issue := if p.mask.getLsbD 1 = true then v.issue else w.issue
                assignment := if p.mask.getLsbD 2 = true then
                  (assignmentOf s.cal v.assignKind v.assignNo).getD w.assignment else w.assignment
                rule := if p.mask.getLsbD 3 = true then v.rule else w.rule
                grade := if p.mask.getLsbD 4 = true then v.grade else w.grade
                profile := if p.mask.getLsbD 5 = true then v.profile else w.profile
                clearance := if p.mask.getLsbD 6 = true then v.clearance else w.clearance
                suspended := if p.mask.getLsbD 7 = true then v.suspended else w.suspended
                unschedOk := if p.mask.getLsbD 8 = true then v.unschedOk else w.unschedOk }
                s.table.workers
              index := if badge = w.badge then s.table.index
                else insertBadge badge v.slot (dropBadge w.badge s.table.index) } }))

/-- WITHDRAW with FORCE clear: RANGE, SLOT_EMPTY, GRANT_PENDING and NOT_SETTLED in this order change
nothing; a settled worker's slot is freed, its index pair removed, and the occupancy of its location
goes down by one. -/
def Obligations.WithdrawFreesTheSettledWorker : Prop :=
  ∀ (notify : Bool) (slot : Nat) (out : OutArea) (s : State) (su : Setup), ReadyFor s su →
    (slotInRange s slot = false → exec (.withdraw notify slot false out) s =
      .next (answered su notify .range (some 0) none s)) ∧
    (slotInRange s slot = true → workerAt s slot = none → exec (.withdraw notify slot false out) s =
      .next (answered su notify .slotEmpty (some 0) none s)) ∧
    ∀ w : Worker, slotInRange s slot = true → workerAt s slot = some w →
      (grantNames s slot = true → exec (.withdraw notify slot false out) s =
        .next (answered su notify .grantPending (some 0) none s)) ∧
      (grantNames s slot = false →
        w.interval.isSome = true ∨ w.reg ≠ 0 ∨ w.night ≠ 0 ∨ w.ot ≠ 0 ∨ w.hol ≠ 0 →
        exec (.withdraw notify slot false out) s =
          .next (answered su notify .notSettled (some 0) none s)) ∧
      (grantNames s slot = false → w.interval = none → w.reg = 0 → w.night = 0 → w.ot = 0 →
        w.hol = 0 →
        exec (.withdraw notify slot false out) s =
          .next (answered su notify .done (some 0) none
            (modZone w.location (fun z => { z with occupancy := z.occupancy - 1 })
              { s with table := { s.table with
                  workers := dropSlot slot s.table.workers
                  index := dropBadge w.badge s.table.index } })))

/-- WITHDRAW with FORCE set, and its resumption: without an output area it is refused; for an OFF worker
the statement record is held and the record freed at the take; an ON worker with room for the record is
closed at the take, with one AUTO_CLOSE record of cause WITHDRAW in a free place, its statement record tells
what the closing left, and the record is freed; for an ON worker without room it waits, changing nothing; and
once a place is free the waiting request does the same. -/
def Obligations.ForcedWithdrawSettlesAndFrees : Prop :=
  ∀ (notify : Bool) (slot : Nat) (out : OutArea) (s : State) (su : Setup) (w : Worker),
    slotInRange s slot = true → workerAt s slot = some w → grantNames s slot = false →
    let freed := { s.table with
      workers := dropSlot slot s.table.workers, index := dropBadge w.badge s.table.index }
    (ReadyFor s su →
      (out.addr = 0 ∨ out.cap = 0 → exec (.withdraw notify slot true out) s =
        .next (answered su notify .noOutput (some 0) none s)) ∧
      (out.addr ≠ 0 → out.cap ≠ 0 → out.addr.toNat % 4 ≠ 0 →
        exec (.withdraw notify slot true out) s =
          .next (answered su notify .range (some 0) none s)) ∧
      (out.addr ≠ 0 → out.cap ≠ 0 → out.addr.toNat % 4 = 0 → w.interval = none →
        exec (.withdraw notify slot true out) s =
          .next (modZone w.location (fun z => { z with occupancy := z.occupancy - 1 })
            { s with
              table := freed
              link := { s.link with
                request := some ⟨.withdraw slot true out, notify, .output, 0, 0⟩
                output := some (.statement (statementRec s.pay s.clock.now slot w false)) } })) ∧
      (out.addr ≠ 0 → out.cap ≠ 0 → out.addr.toNat % 4 = 0 → w.interval.isSome = true →
        hasRoom s = false →
        exec (.withdraw notify slot true out) s = .next { s with link := { s.link with
          request := some ⟨.withdraw slot true out, notify, .deferred, 0, 0⟩ } })) ∧
    ∀ i : OpenInterval, hasRoom s = true → w.interval = some i →
      out.addr ≠ 0 → out.cap ≠ 0 → out.addr.toNat % 4 = 0 →
      let closed := autoClosed slot .withdraw w i s
      let settled := modZone w.location (fun z => { z with occupancy := z.occupancy - 1 })
        { closed with
          table := freed
          link := { closed.link with
            request := some ⟨.withdraw slot true out, notify, .output, 0, 0⟩
            output := some (.statement
              (statementRec s.pay s.clock.now slot (closing s.cal s.pay w i none).1 false)) } }
      (ReadyFor s su → exec (.withdraw notify slot true out) s = .next settled) ∧
      (s.regs.run = .running →
        s.link.request = some ⟨.withdraw slot true out, notify, .deferred, 0, 0⟩ →
        exec .withdrawDeferredResume s = .next settled)

/-- RELOCATE: its refusals in their order change nothing; otherwise the worker stands in the zone, the
occupancy of the old zone has gone down by one and that of the new zone up by one, and a move to the
present location changes nothing. -/
def Obligations.RelocateMovesTheWorker : Prop :=
  ∀ (notify : Bool) (slot zone : Nat) (s : State) (su : Setup), ReadyFor s su →
    (15 < zone ∨ slotInRange s slot = false → exec (.relocate notify slot zone) s =
      .next (answered su notify .range (some 0) none s)) ∧
    (zone ≤ 15 → slotInRange s slot = true → workerAt s slot = none →
      exec (.relocate notify slot zone) s =
        .next (answered su notify .slotEmpty (some 0) none s)) ∧
    ∀ (w : Worker) (z : ZoneNo), z.val = zone → slotInRange s slot = true →
      workerAt s slot = some w →
      let absent := ∃ i : Fin 15, i.val + 1 = zone ∧ s.zones[i].present = false
      let full := w.location ≠ z ∧ ∃ i : Fin 15, i.val + 1 = zone ∧ s.zones[i].capacity ≠ 0 ∧
        s.zones[i].capacity ≤ s.zones[i].occupancy + s.zones[i].reserved
      (fireActive s = true → exec (.relocate notify slot zone) s =
        .next (answered su notify .fireActive (some 0) none s)) ∧
      (fireActive s = false → grantNames s slot = true → exec (.relocate notify slot zone) s =
        .next (answered su notify .grantPending (some 0) none s)) ∧
      (fireActive s = false → grantNames s slot = false → absent →
        exec (.relocate notify slot zone) s =
          .next (answered su notify .zoneAbsent (some 0) none s)) ∧
      (fireActive s = false → grantNames s slot = false → ¬ absent → full →
        exec (.relocate notify slot zone) s =
          .next (answered su notify .zoneFull (some 0) none s)) ∧
      (fireActive s = false → grantNames s slot = false → ¬ absent → ¬ full →
        exec (.relocate notify slot zone) s = .next (answered su notify .done (some 0) none
          (if w.location = z then s
          else modZone z (fun e => { e with occupancy := e.occupancy + 1 })
            (modZone w.location (fun e => { e with occupancy := e.occupancy - 1 })
              { s with table := { s.table with
                  workers := putSlot slot { w with location := z } s.table.workers } }))))

/-- FORGIVE is refused while fire is active; otherwise it sets the location to 0 for each worker that is
OFF, inside and named by no grant, lowers each old zone's occupancy by one for each such move, answers
the number moved, and leaves every other worker and everything else as it was. -/
def Obligations.ForgiveReturnsOffWorkersOutside : Prop :=
  ∀ (notify : Bool) (s : State) (su : Setup), ReadyFor s su →
    s.table.workers.Pairwise (fun a b => a.1 < b.1) →
    let moved : Nat × Worker → Bool := fun e =>
      e.2.interval.isNone && e.2.location != 0 && !grantNames s e.1
    (fireActive s = true → exec (.forgive notify) s =
      .next (answered su notify .fireActive (some 0) none s)) ∧
    (fireActive s = false →
      ∃ zones : Vector Zone 15,
        exec (.forgive notify) s = .next (answered su notify .done
          (some (s.table.workers.countP moved)) none
          { s with
            zones := zones
            table := { s.table with
              workers := s.table.workers.map fun e =>
                if moved e = true then (e.1, { e.2 with location := 0 }) else e } }) ∧
        ∀ i : Fin 15, zones[i] = { s.zones[i] with
          occupancy := s.zones[i].occupancy -
            s.table.workers.countP (fun e => moved e && e.2.location.val == i.val + 1) })

/-! ### Requests that write output -/

/-- STATEMENT and its copies: RANGE, NO_OUTPUT and RANGE for a misaligned area in this order, each with the
count 0 of the records written and a free resume index (notes/assumptions/4.md); with no
in-use slot in the range it is answered DONE with count 0; else it becomes the request in progress with
its cursor at the first slot. Each copy takes the next in-use slot, holds its record, moves the cursor
past it, and with RESET clears the four accumulators and SATURATED of that worker alone. -/
def Obligations.StatementCopiesInSlotOrder : Prop :=
  ∀ (notify : Bool) (first last : Nat) (reset : Bool) (out : OutArea) (s : State) (su : Setup),
    let areaBad := out.addr = 0 ∨ out.cap = 0
    let c : Instr := .statement notify first last reset out
    (ReadyFor s su →
      (last < first ∨ slotInRange s last = false →
        exec c s = .next (answered su notify .range (some 0) none s)) ∧
      (first ≤ last → slotInRange s last = true → areaBad →
        exec c s = .next (answered su notify .noOutput (some 0) none s)) ∧
      (first ≤ last → slotInRange s last = true → ¬ areaBad → out.addr.toNat % 4 ≠ 0 →
        exec c s = .next (answered su notify .range (some 0) none s)) ∧
      (first ≤ last → slotInRange s last = true → ¬ areaBad → out.addr.toNat % 4 = 0 →
        (nextInUse s first last = none →
          exec c s = .next (answered su notify .done (some 0) (some 0) s)) ∧
        ∀ k : Nat, nextInUse s first last = some k →
          exec c s = .next { s with link := { s.link with
            request := some ⟨.statement first last reset out, notify, .output, first, 0⟩ } })) ∧
    ∀ (cursor written k : Nat) (w : Worker), s.regs.run = .running → s.link.output = none →
      s.link.request = some ⟨.statement first last reset out, notify, .output, cursor, written⟩ →
      nextInUse s cursor last = some k → workerAt s k = some w →
      exec .statementCopy s = .next { s with
        table := { s.table with
          workers := if reset = true then
            putSlot k { w with reg := 0, night := 0, ot := 0, hol := 0, saturated := false }
              s.table.workers
          else s.table.workers }
        link := { s.link with
          request := some ⟨.statement first last reset out, notify, .output, k + 1, written⟩
          output := some (.statement (statementRec s.pay s.clock.now k w reset)) } }

/-- A statement record prices each class at floor((m × R × k + 240) / 480) cents, with k of 8 for REG
and the multipliers of the worker's rule for the others, and R the rate of the worker's grade, and it
reports the record as it stands at the copy. -/
def Obligations.StatementRecordPricesEachClass : Prop :=
  ∀ (p : PayTables) (now : Stamp) (slot : Nat) (w : Worker) (reset : Bool),
    let r := payRule p w.rule
    let rate := p.grades.getD w.grade 0
    let x := statementRec p now slot w reset
    x.reg = w.reg ∧ x.night = w.night ∧ x.ot = w.ot ∧ x.hol = w.hol ∧
    x.regCents = (w.reg * rate * 8 + 240) / 480 ∧
    x.nightCents = (w.night * rate * r.nightMul + 240) / 480 ∧
    x.otCents = (w.ot * rate * r.otMul + 240) / 480 ∧
    x.holCents = (w.hol * rate * r.holMul + 240) / 480 ∧
    x.total = x.regCents + x.nightCents + x.otCents + x.holCents ∧
    x.slot = slot ∧ x.badge = w.badge ∧ x.issue = w.issue ∧ x.grade = w.grade ∧ x.rule = w.rule ∧
    x.saturated = w.saturated ∧ x.on = w.interval.isSome ∧ x.reset = reset ∧
    x.location = w.location ∧ x.time = now ∧
    (x.latePending = true ↔ ∃ i : OpenInterval, w.interval = some i ∧ i.late = true)

/-- READ_STATUS is refused NO_OUTPUT, then RANGE, with the count 0 of the records written and a free resume
index (notes/assumptions/4.md). Else it holds its snapshot at the take: 212 bytes, with the time, the states, ρ, d, W,
CLOCK_VALID, U, V, Q, the two counts and the two positions, and then the doors, the zones and the lines in
order, each field at its place of R178, W written as 0 while none is fixed. OUTPUT_WRITE_DONE writes the held record at its place
in place order: a snapshot or a forced WITHDRAW's record ends its request DONE, and a statement goes on
to its next copy, ends DONE past its last in-use slot, or ends PARTIAL at the capacity with the next
in-use slot as its resume index. -/
def Obligations.OutputIsWrittenInPlaceOrder : Prop :=
  (∀ s : State,
    let b := statusSnapshot s
    let at_ : Nat → Nat → List Byte := fun offset n => (b.drop offset).take n
    b.length = 212 ∧
    at_ 0 8 = le32 s.clock.now.sec ++ [byteOf s.clock.now.beat, byteOf s.regs.run.code,
      byteOf s.clock.sync.code, byteOf s.fire.state.code] ∧
    at_ 8 8 = le16 (signed16 s.clock.rho) ++ le16 (signed16 s.clock.lastDev) ++
      le16 (s.table.capacity.getD 0) ++ [if s.clock.valid = true then 1 else 0, 0] ∧
    at_ 16 10 = le16 s.link.queue.length ++ le16 s.link.reserved ++ le16 (queueCap s) ++
      le16 s.link.holdGap ++ le16 s.link.lost ∧
    at_ 26 4 = le16 s.link.workPos ++ le16 s.link.journalPos ∧
    (∀ d : DoorNo, at_ (30 + 2 * d.val) 2 = [byteOf s.doors[d].state.code,
      byteOf (s.doors[d].entry.mode.code + 4 * s.doors[d].contact.code +
        (if s.doors[d].mark = true then 8 else 0))]) ∧
    (∀ i : Fin 15, at_ (54 + 4 * i.val) 4 = le16 s.zones[i].occupancy ++ [byteOf s.zones[i].reserved,
      byteOf (s.zones[i].type.code + (if s.zones[i].present = true then 4 else 0))]) ∧
    (∀ l : LineNo, at_ (114 + 4 * l.val) 4 = le16 s.lines[l].bad ++
      [byteOf ((if s.lines[l].online = true then 1 else 0) +
        (if s.lines[l].tamper = true then 2 else 0)), byteOf s.lines[l].desc.kind.code]) ∧
    at_ 210 2 = [0, 0]) ∧
  ∀ (notify : Bool) (out : OutArea) (s : State) (su : Setup),
    (ReadyFor s su →
      (out.addr = 0 ∨ out.cap = 0 → exec (.readStatus notify out) s =
        .next (answered su notify .noOutput (some 0) none s)) ∧
      (out.addr ≠ 0 → out.cap ≠ 0 → out.addr.toNat % 4 ≠ 0 → exec (.readStatus notify out) s =
        .next (answered su notify .range (some 0) none s)) ∧
      (out.addr ≠ 0 → out.cap ≠ 0 → out.addr.toNat % 4 = 0 →
        exec (.readStatus notify out) s = .next { s with link := { s.link with
          request := some ⟨.readStatus out, notify, .output, 0, 0⟩
          output := some (.snapshot (statusSnapshot s)) } })) ∧
    ∀ (q : Request) (o : HeldOutput), s.regs.run = .running → s.linkAnswers = [] →
      s.link.ret = none → s.link.setup = some su → q.stage = .output → s.link.request = some q →
      s.link.output = some o → outputArea q.req = some out →
      let written := { s with
        ram := writeBytes s.ram out.addr (o.size * q.written) o.bytes
        link := { s.link with
          request := some { q with written := q.written + 1 }
          output := none } }
      ((∀ first last reset out', q.req ≠ .statement first last reset out') →
        exec .outputWriteDone s =
          .next (answered su q.notify .done (some (q.written + 1)) none written)) ∧
      ∀ (first last : Nat) (reset : Bool), q.req = .statement first last reset out →
        (nextInUse s q.cursor last = none →
          exec .outputWriteDone s =
            .next (answered su q.notify .done (some (q.written + 1)) (some 0) written)) ∧
        ∀ k : Nat, nextInUse s q.cursor last = some k →
          (q.written + 1 = out.cap → exec .outputWriteDone s =
            .next (answered su q.notify .partial_ (some (q.written + 1)) (some k) written)) ∧
          (q.written + 1 ≠ out.cap → exec .outputWriteDone s = .next written)

/-! ### Requests to the clock, the zones, the doors and the bells; the memory link -/

/-- A step of plant time, and SET_TIME. A step, of any cause, sets the time, clamped to the end of its range,
cancels a slew and prunes the exceptions when the day rises; it makes one CLOCK_STEP record with the old time
and the cause and raises CLOCK_STEP; then the plan entries in (H, new], by instant and then in table order,
are taken: one that would sound does so up to 60 s late and is skipped beyond, a circuit named by several
sounding the last, with one BELL_SKIPPED record of the number, the first and the last; H moves no earlier than
it was; and while the gates run the deadlines in (old, new] are acted on in their order. That the bell notice
comes before the deadline notice is the model's choice (notes/assumptions/31.md), and so is that a waiting
closing is passed over (notes/assumptions/21.md). SET_TIME: RANGE above the last plant second, then SYNC_OWNS
while LOCKED, change nothing; otherwise it is a step of cause SET_TIME to the second at beat 0, answered DONE.
The RAM of the last clause is in its canonical form, which every step keeps (notes/assumptions/3.md). -/
def Obligations.SetTimeStepsTheClock : Prop :=
  (∀ (plan : List BellEntry) (h new : Nat), (∀ e ∈ plan, e.sec < 86400) →
    plan.Pairwise (fun a b => a.sec ≤ b.sec) →
    let l := passedEntries plan h new
    (∀ x ∈ l, plan[x.2.1]? = some x.2.2 ∧ h < x.1 * 86400 + x.2.2.sec ∧
      x.1 * 86400 + x.2.2.sec ≤ new) ∧
    (∀ (day k : Nat) (e : BellEntry), plan[k]? = some e → h < day * 86400 + e.sec →
      day * 86400 + e.sec ≤ new → (day, k, e) ∈ l) ∧
    l.Pairwise fun x y => x.1 * 86400 + x.2.2.sec < y.1 * 86400 + y.2.2.sec ∨
      (x.1 * 86400 + x.2.2.sec = y.1 * 86400 + y.2.2.sec ∧ x.2.1 < y.2.1)) ∧
  (∀ (target : Stamp) (cause : StepCause) (s : State),
    let old := s.clock.now
    let new : Stamp := if Config.lastSecond < target.sec then ⟨Config.lastSecond, 15⟩ else target
    let beats : Stamp → Nat := fun x => x.sec * 16 + x.beat
    let set := { s with
      clock := { s.clock with now := new, slew := none }
      cal := { s.cal with exceptions := if old.sec / 86400 < new.sec / 86400 then
        s.cal.exceptions.filter fun e => new.sec / 86400 ≤ e.1 + 7 else s.cal.exceptions } }
    let told := raise .clockStep (report (.clockStep (some old) cause) set)
    let named := (passedEntries s.bells.plan s.bells.passed new.sec).filter fun x =>
      gatesRun s && !s.mode.bellsOff && !s.mode.rehearsal && x.2.2.days.getLsbD (dayType set.cal x.1)
    let late : Nat × Nat × BellEntry → Bool := fun x =>
      decide (960 < beats new - (x.1 * 86400 + x.2.2.sec) * 16)
    let skipped := named.filter late
    let heard := named.filter fun x => !late x
    let reached := slotsByDeadline (fun i => !i.waiting && decide (beats old < i.deadline * 16) &&
      decide (i.deadline * 16 ≤ beats new)) s
    ∃ circuits : Vector Circuit 8,
      let rung := { told with bells := { s.bells with
        passed := max s.bells.passed new.sec
        circuits := circuits } }
      let noticed := skipped.head?.elim rung fun x => skipped.getLast?.elim rung fun y =>
        report (.bellSkipped old.sec (min 65535 skipped.length) x.1 x.2.1 y.1 y.2.1) rung
      stepTo target cause s =
        (if gatesRun s = true then deadlinesActed reached noticed else noticed) ∧
      ∀ k : CircuitNo, circuits[k] =
        (if s.bells.circuits[k].isEvac = true then s.bells.circuits[k]
        else (heard.filter fun x => x.2.2.circuits.getLsbD k.val).getLast?.elim s.bells.circuits[k]
          fun x =>
            let length := if x.2.2.pattern = .triple then 80 else x.2.2.duration * 16
            .sounding x.2.2.pattern length length)) ∧
  ∀ (notify : Bool) (sec : Nat) (s : State) (su : Setup), ReadyFor s su →
    (Config.lastSecond < sec → exec (.setTime notify sec) s =
      .next (answered su notify .range none none s)) ∧
    (sec ≤ Config.lastSecond → s.clock.sync = .locked → exec (.setTime notify sec) s =
      .next (answered su notify .syncOwns none none s)) ∧
    (sec ≤ Config.lastSecond → s.clock.sync ≠ .locked → exec (.setTime notify sec) s =
      .next (answered su notify .done none none (stepTo ⟨sec, 0⟩ .setTime s))) ∧
    (sec ≤ Config.lastSecond → s.clock.sync ≠ .locked → RamCanonical s →
      ∃ t : State, exec (.setTime notify sec) s = .next t ∧
        t.clock = { s.clock with now := ⟨sec, 0⟩, slew := none } ∧
        t.cal = { s.cal with exceptions :=
          if s.clock.now.sec / 86400 < sec / 86400 then
            s.cal.exceptions.filter fun e => sec / 86400 ≤ e.1 + 7
          else s.cal.exceptions } ∧
        t.bells.passed = max s.bells.passed sec ∧ t.bells.plan = s.bells.plan ∧
        flagSet .clockStep t = true ∧ t.link.request = none ∧ t.link.ret = none ∧
        t.link.workPos = nextWorkPos su s.link.workPos ∧
        readCell t.ram (addrAt su.workList (64 * s.link.workPos)) = 0xA5 ∧
        readCell t.ram (addrAt su.workList (64 * s.link.workPos + 3)) = 0x00 ∧
        t.mode = s.mode ∧ t.lines = s.lines ∧ t.zones = s.zones ∧ t.doors = s.doors ∧
        t.pay = s.pay ∧ t.fire = s.fire ∧ t.table.index = s.table.index)

/-- CAL_SET: RANGE for a day above 32767 or a type above 7; NO_ROOM for a 65th day; otherwise the day's
type is replaced or the entry inserted, the day has that type from then on, every other day keeps its
own, and nothing else changes. -/
def Obligations.CalSetGivesTheDayItsType : Prop :=
  ∀ (notify : Bool) (day type : Nat) (s : State) (su : Setup), ReadyFor s su →
    (32767 < day ∨ 7 < type → exec (.calSet notify day type) s =
      .next (answered su notify .range none none s)) ∧
    (day ≤ 32767 → type ≤ 7 → exceptionType s.cal day = none → 64 ≤ s.cal.exceptions.length →
      exec (.calSet notify day type) s = .next (answered su notify .noRoom none none s)) ∧
    (day ≤ 32767 → type ≤ 7 →
      (exceptionType s.cal day).isSome = true ∨ s.cal.exceptions.length < 64 →
      s.cal.exceptions.Pairwise (fun a b => a.1 < b.1) →
      ∃ l : List (Nat × Nat),
        exec (.calSet notify day type) s = .next (answered su notify .done none none
          { s with cal := { s.cal with exceptions := l } }) ∧
        l.Pairwise (fun a b => a.1 < b.1) ∧ (day, type) ∈ l ∧
        (∀ d x : Nat, d ≠ day → ((d, x) ∈ l ↔ (d, x) ∈ s.cal.exceptions)) ∧
        dayType { s.cal with exceptions := l } day = type ∧
        ∀ d : Nat, d ≠ day → dayType { s.cal with exceptions := l } d = dayType s.cal d)

/-- CAL_CLEAR: the entry for the day is removed, the entries after it keep their order, and the request
is answered DONE; the day then takes its type from the week pattern. With no entry for the day it is
refused NOT_FOUND, and a day above 32767 RANGE. No record is made and nothing else changes. -/
def Obligations.CalClearRemovesTheEntry : Prop :=
  ∀ (notify : Bool) (day : Nat) (s : State) (su : Setup), ReadyFor s su →
    (32767 < day → exec (.calClear notify day) s =
      .next (answered su notify .range none none s)) ∧
    (day ≤ 32767 → (∀ x : Nat, (day, x) ∉ s.cal.exceptions) → exec (.calClear notify day) s =
      .next (answered su notify .notFound none none s)) ∧
    ∀ x : Nat, day ≤ 32767 → (day, x) ∈ s.cal.exceptions →
      let cal := { s.cal with exceptions := s.cal.exceptions.filter fun e => e.1 ≠ day }
      exec (.calClear notify day) s = .next (answered su notify .done none none { s with cal := cal }) ∧
      dayType cal day = s.cal.week.getD ((day + s.cal.epochWeekday) % 7) 0 ∧
      ∀ d : Nat, d ≠ day → dayType cal d = dayType s.cal d

/-- ZONE_SET is refused with RANGE, changing nothing, when the zone is 0 or above 15, the capacity is
above 4095, or the ceiling is above 3; otherwise the capacity, PRESENT flag and ceiling of the zone are
replaced and the status is DONE with a count of 0. The type, both counts, every other zone and
everything else stay; no record is made. -/
def Obligations.ZoneSetReplacesTheEntry : Prop :=
  ∀ (notify : Bool) (zone : Nat) (present : Bool) (ceiling capacity : Nat) (s : State) (su : Setup),
    ReadyFor s su →
    (zone = 0 ∨ 15 < zone ∨ 4095 < capacity ∨ 3 < ceiling →
      exec (.zoneSet notify zone present ceiling capacity) s =
        .next (answered su notify .range none none s)) ∧
    (1 ≤ zone → zone ≤ 15 → capacity ≤ 4095 → ceiling ≤ 3 →
      ∃ zones : Vector Zone 15,
        exec (.zoneSet notify zone present ceiling capacity) s =
          .next (answered su notify .done (some 0) none { s with zones := zones }) ∧
        ∀ i : Fin 15, zones[i] = (if i.val + 1 = zone then
          { s.zones[i] with present := present, capacity := capacity, ceiling := ceiling }
          else s.zones[i]))

/-- DOOR_MODE: RANGE for a door above 11 or a mode that is not defined. Otherwise the mode is stored; a
grant at the door ends in a lapse of cause MODE: its zone reservation is given back, one LAPSED record takes
the place reserved for it, and the closing of a worker past its deadline follows; SECURE, RELEASED and FREE doors come to rest
as the new mode requires; OPEN, HELD and FORCED doors become FREE under mode FREE and stay otherwise;
FAULT, EGRESS and INACTIVE doors stay; and the count is 1 when a grant ended. The door obeys its laws
and the RAM is in its canonical form, both of which every step keeps (notes/assumptions/3.md). -/
def Obligations.DoorModeSetsTheDoor : Prop :=
  ∀ (notify : Bool) (door mode : Nat) (s : State) (su : Setup), ReadyFor s su →
    (11 < door ∨ 2 < mode → exec (.doorMode notify door mode) s =
      .next (answered su notify .range none none s)) ∧
    ∀ (d : DoorNo) (m : DoorMode), d.val = door → DoorMode.ofCode mode = some m →
      DoorLawful s s.doors[d] → RamCanonical s →
      let e := s.doors[d]
      let stored := modDoor d (fun e => { e with entry := { e.entry with mode := m }, grant := none }) s
      let lapsed := e.grant.elim stored fun g => grantEnded g.slot (handOver true s.clock.now
        (.lapsed g.slot ((workerAt s g.slot).elim 0 (·.badge)) d g.line g.inward g.kind .mode g.time)
        (modZone g.target (fun z => { z with reserved := z.reserved - 1 }) stored))
      let done : State → Prop := fun t => exec (.doorMode notify door mode) s =
        .next (answered su notify .done (some (if e.grant.isSome = true then 1 else 0)) none t)
      (e.state = .secure ∨ e.state = .released ∨ e.state = .free →
        done (modDoor d (fun e =>
          if m = .free then entered s .free .released e
          else if e.contact = .closed then entered s .secure .locked e
          else { entered s .open_ .locked e with
            held := some (e.entry.heldLimit * 16)
            openStart := some s.clock.now }) lapsed)) ∧
      (e.state = .open_ ∨ e.state = .held ∨ e.state = .forced →
        done (if m = .free then modDoor d (entered s .free .released) lapsed else lapsed)) ∧
      (e.state = .fault ∨ e.state = .egress ∨ e.state = .inactive → done lapsed) ∧
      ∃ t : State, exec (.doorMode notify door mode) s = .next t ∧
        SlotReturned su s t .done (if e.grant.isSome = true then 1 else 0) ∧
        t.doors[d].entry = { e.entry with mode := m } ∧ t.doors[d].grant = none ∧
        (e.state = .secure ∨ e.state = .released ∨ e.state = .free →
          t.doors[d].state = (if m = .free then DoorState.free
            else if e.contact = .closed then DoorState.secure else DoorState.open_)) ∧
        (e.state = .open_ ∨ e.state = .held ∨ e.state = .forced →
          (m = .free → t.doors[d].state = .free) ∧
          (m ≠ .free → t.doors[d].state = e.state ∧ t.doors[d].held = e.held ∧
            t.doors[d].alarmStart = e.alarmStart)) ∧
        (e.state = .fault ∨ e.state = .egress ∨ e.state = .inactive →
          t.doors[d].state = e.state) ∧
        t.link.reserved = (if e.grant.isSome = true then s.link.reserved - 1 else s.link.reserved) ∧
        (∀ d' : DoorNo, d' ≠ d → t.doors[d'] = s.doors[d']) ∧
        t.clock = s.clock ∧ t.mode = s.mode ∧ t.cal = s.cal ∧ t.lines = s.lines ∧
        t.pay = s.pay ∧ t.bells = s.bells ∧ t.fire = s.fire ∧ t.table.index = s.table.index

/-- DOOR_PULSE: RANGE, DOOR_LOCKED and DOOR_FAULT in this order change nothing. A SECURE door is released
for the duration, with no grant; a RELEASED door's timer starts again at the duration, its grant kept;
any other door stays, with a count of 0. A duration of 0 means the door's release time, and any other
is clamped to 1 to 60 s. That a RELEASED door takes the duration of R97, and not the release time of R89,
is the model's choice (notes/assumptions/36.md). -/
def Obligations.DoorPulseReleasesTheDoor : Prop :=
  ∀ (notify : Bool) (door duration : Nat) (s : State) (su : Setup), ReadyFor s su →
    (11 < door → exec (.doorPulse notify door duration) s =
      .next (answered su notify .range none none s)) ∧
    ∀ d : DoorNo, d.val = door →
      let e := s.doors[d]
      let beats := 16 * (if duration = 0 then e.entry.release else min 60 duration)
      (e.entry.mode = .locked → exec (.doorPulse notify door duration) s =
        .next (answered su notify .doorLocked none none s)) ∧
      (e.entry.mode ≠ .locked → e.state = .fault → exec (.doorPulse notify door duration) s =
        .next (answered su notify .doorFault none none s)) ∧
      (e.entry.mode ≠ .locked → e.state = .secure → s.mode.rehearsal = false → e.cmd = .locked →
        exec (.doorPulse notify door duration) s = .next (answered su notify .done (some 1) none
          (modDoor d (fun e => { e with
            state := .released
            release := some beats
            held := none
            alarmStart := none
            openStart := none
            cmd := .released
            settle := if e.entry.supervised = true then some 4 else none
            disagree := 0 }) s))) ∧
      (e.entry.mode ≠ .locked → e.state = .secure → s.mode.rehearsal = true → e.cmd = .locked →
        exec (.doorPulse notify door duration) s = .next (answered su notify .done (some 1) none
          (modDoor d (fun e => { e with
            state := .released
            release := some beats
            held := none
            alarmStart := none
            openStart := none }) s))) ∧
      (e.entry.mode ≠ .locked → e.state = .released →
        exec (.doorPulse notify door duration) s = .next (answered su notify .done (some 1) none
          (modDoor d (fun e => { e with release := some beats }) s))) ∧
      (e.entry.mode ≠ .locked →
        e.state = .open_ ∨ e.state = .held ∨ e.state = .forced ∨ e.state = .free ∨
          e.state = .egress →
        exec (.doorPulse notify door duration) s = .next (answered su notify .done (some 0) none s))

/-- The memory link. The row of a request that POLL has taken acts as on a state with none in progress, and
the row of another request changes nothing (notes/assumptions/7.md). A drain outside RUNNING, on an empty
queue or at a FILLED entry writes nothing; otherwise it writes the head record, of one entry or two, and
goes on as a drain of what is left; a waiting closing or a deferred WITHDRAW that has room is served first,
as its own command serves it (notes/assumptions/10.md). A record of two entries that finds both EMPTY is
written at once, continuation first, each entry's owner byte after its bytes, and the position and the fill
count go on by two; with either FILLED it is held, and HOLDING raised. With a gap or lost count and a place
beside its own, a record has a HOLD_GAP record placed ahead of it, and both counts are 0; without that
place it is placed alone. RUN in ISOLATED writes the pending return, then the held output record, then
drains, then begins a pending muster list, and restarts the poll timer; an error at the return leaves the
part ISOLATED with all of it kept. That a suspended muster write, which R176 lets RUN go on with, stands at
its next entry until MUSTER_WRITE_DONE is the model's choice (notes/assumptions/28.md). -/
def Obligations.MemoryLinkServesInOrder : Prop :=
  (∀ (c : Instr) (r : Req) (notify : Bool) (s : State), c.request = some (r, notify) →
    s.regs.run = .running →
    (s.link.ret = none → s.link.muster = none →
      s.link.request = some ⟨r, notify, .taken, 0, 0⟩ →
      exec c s = exec c { s with link := { s.link with request := none } }) ∧
    ∀ q : Request, s.link.request = some q →
      q.stage ≠ .taken ∨ q.req ≠ r ∨ q.notify ≠ notify → exec c s = .next s) ∧
  (∀ (s : State) (su : Setup), s.link.setup = some su → s.linkAnswers = [] →
    (s.regs.run ≠ .running → drain s = s) ∧
    (s.regs.run = .running →
      let size := 2 ^ su.journalLog
      let off : Nat → Nat := fun k => 32 * ((s.link.journalPos + k) % size)
      let filled : Nat → Prop := fun k => readCell s.ram (addrAt su.journal (off k)) ≠ 0
      (waitingSlots s = [] → withdrawWaits s = false →
        (s.link.queue = [] → drain s = s) ∧
        ∀ (r : Record) (rest : List Record), s.link.queue = r :: rest →
          let n := r.body.entries
          let put : Nat → Memory → Memory := fun k m =>
            writeBytes (writeBytes m su.journal (off k + 1) (r.entryBytes k)) su.journal (off k) [0xF1]
          let fill := min size (s.link.fill + n)
          let left := { s with
            ram := put 0 (if n = 2 then put 1 s.ram else s.ram)
            link := { s.link with
              queue := rest
              contWritten := false
              journalPos := (s.link.journalPos + n) % size
              fill := fill } }
          (filled 0 ∨ (n = 2 ∧ s.link.contWritten = false ∧ filled 1) → drain s = s) ∧
          (¬ filled 0 → ¬ (n = 2 ∧ s.link.contWritten = false ∧ filled 1) →
            drain s = drain (if s.link.fill < su.threshold ∧ su.threshold ≤ fill then
              raise .journal left else left))) ∧
      (s.link.queue ≠ [] → filled 0 → hasRoom s = true →
        s.table.workers.Pairwise (fun a b => a.1 < b.1) →
        (∀ slot : Nat, waitingSlots s = [slot] → withdrawWaits s = false →
          exec .waitingClosingServed s = .next (drain s)) ∧
        ∀ (slot : Nat) (out : OutArea) (notify : Bool),
          s.link.request = some ⟨.withdraw slot true out, notify, .deferred, 0, 0⟩ →
          withdrawTest s slot true out = none → waitingSlots s = [slot] ∨ waitingSlots s = [] →
          exec .withdrawDeferredResume s = .next (drain s)))) ∧
  (∀ (time : Stamp) (b : RecordBody) (s : State) (su : Setup), s.regs.run = .running →
    s.link.setup = some su → s.linkAnswers = [] → s.link.queue = [] → s.link.holdGap = 0 →
    s.link.lost = 0 → 2 ≤ freePlaces s → s.link.contWritten = false → b.entries = 2 →
    let r : Record := ⟨s.link.seq, time, b, s.link.draws⟩
    let size := 2 ^ su.journalLog
    let off : Nat → Nat := fun k => 32 * ((s.link.journalPos + k) % size)
    let empty : Nat → Prop := fun k => readCell s.ram (addrAt su.journal (off k)) = 0
    let second := writeBytes (writeBytes s.ram su.journal (off 1 + 1) r.contEntry)
      su.journal (off 1) [0xF1]
    (empty 0 → empty 1 →
      ∃ t : State, handOver false time b s = t ∧
        t.ram = writeBytes (writeBytes second su.journal (off 0 + 1) r.firstEntry)
          su.journal (off 0) [0xF1] ∧
        t.link = { s.link with
          seq := (s.link.seq + 1) % 65536
          draws := s.link.draws + 1
          contWritten := false
          journalPos := (s.link.journalPos + 2) % size
          fill := min size (s.link.fill + 2) } ∧
        (s.link.fill < su.threshold → su.threshold ≤ min size (s.link.fill + 2) →
          flagSet .journal t = true) ∧
        t.regs.run = .running ∧ t.table = s.table ∧ t.doors = s.doors ∧ t.clock = s.clock) ∧
    (¬ (empty 0 ∧ empty 1) →
      handOver false time b s = { s with
        link := { s.link with
          queue := [r]
          seq := (s.link.seq + 1) % 65536
          draws := s.link.draws + 1 }
        regs := { s.regs with events := s.regs.events ||| 0x010#12 } })) ∧
  (∀ (reserved : Bool) (time : Stamp) (b : RecordBody) (s : State),
    s.regs.run ≠ .clearing → s.regs.run ≠ .running ∨ s.link.queue ≠ [] → s.link.holdGap ≠ 0 ∨ s.link.lost ≠ 0 →
    let beside := if reserved = true then 1 else 2
    let left := if reserved = true then s.link.reserved - 1 else s.link.reserved
    (beside ≤ freePlaces s →
      ∃ t : State, handOver reserved time b s = t ∧
        t.link = { s.link with
          queue := s.link.queue ++
            [⟨s.link.seq, s.clock.now, .holdGap s.link.holdGap s.link.lost, s.link.draws⟩,
              ⟨(s.link.seq + 1) % 65536, time, b, s.link.draws + 1⟩]
          seq := (s.link.seq + 2) % 65536
          draws := s.link.draws + 2
          holdGap := 0
          lost := 0
          reserved := left } ∧
        (s.link.queue = [] → flagSet .holding t = true) ∧
        (freePlaces s = beside → flagSet .holdFull t = true) ∧
        t.ram = s.ram ∧ t.table = s.table ∧ t.doors = s.doors ∧ t.clock = s.clock) ∧
    (freePlaces s < beside → reserved = true ∨ freePlaces s = 1 →
      ∃ t : State, handOver reserved time b s = t ∧
        t.link = { s.link with
          queue := s.link.queue ++ [⟨s.link.seq, time, b, s.link.draws⟩]
          seq := (s.link.seq + 1) % 65536
          draws := s.link.draws + 1
          reserved := left } ∧
        t.ram = s.ram ∧ t.table = s.table ∧ t.doors = s.doors ∧ t.clock = s.clock)) ∧
  ∀ (host : HostWrites) (s : State), s.regs.run = .isolated →
    let m := hostWrite s.ram host
    let back := { s with ram := m, regs := { s.regs with run := .running } }
    (s.linkAnswers = [] →
      ∃ held began : State,
        exec .outputWriteDone (settleReturn back) = .next held ∧
        exec .musterWriteStart (drain held) = .next began ∧
        exec (.run host) s = .next { began with link := { began.link with
          pollTimer := s.link.setup.map (·.poll) } }) ∧
    ∀ (rest : List Bool) (ret : Return) (su : Setup), s.linkAnswers = true :: rest →
      s.link.ret = some ret → s.link.setup = some su →
      exec (.run host) s = .next { s with
        ram := m
        linkAnswers := rest
        regs := { s.regs with events := s.regs.events ||| 0x040#12 }
        link := { s.link with pollTimer := some su.poll } }

/-- RING: RANGE for a pattern that is not defined; otherwise each IDLE or SOUNDING circuit of the mask
takes the sounding from its beginning, unless BELLS_OFF or REHEARSAL is in force, an EVACUATE circuit
is left as it is, and the count is the number of circuits that took it. -/
def Obligations.RingSoundsTheMaskedCircuits : Prop :=
  ∀ (notify : Bool) (mask : BitVec 8) (pattern duration : Nat) (s : State) (su : Setup),
    ReadyFor s su →
    (2 < pattern → exec (.ring notify mask pattern duration) s =
      .next (answered su notify .range none none s)) ∧
    ∀ p : Pattern, Pattern.ofCode pattern = some p →
      let beats := if p = .triple then 80 else 16 * min 30 (max 1 duration)
      let takes : CircuitNo → Bool := fun c => !s.mode.bellsOff && !s.mode.rehearsal &&
        mask.getLsbD c.val && !s.bells.circuits[c].isEvac
      ∃ circuits : Vector Circuit 8,
        exec (.ring notify mask pattern duration) s = .next (answered su notify .done
          (some (allCircuits.countP takes)) none
          { s with bells := { s.bells with circuits := circuits } }) ∧
        ∀ c : CircuitNo, circuits[c] =
          (if takes c = true then .sounding p beats beats else s.bells.circuits[c])

/-- INJECT: NOT_REHEARSAL outside rehearsal, then RANGE for an event kind or field out of its range, each
with free count and resume index (notes/assumptions/4.md). A PRESENT goes through the check on its line at
the plant time now, with that time and its own site, badge and issue: the answer is not sent, its lamp's code
is the count, 0 for silent, and an answered badge counts for the hold-off. On an UNUSED line it is AMBER,
count 3; in service each step acts as in PresentationStepsDecideInOrder. For every badge number: that 0 and
4,294,967,295 are not answered RANGE is the model's choice (notes/assumptions/41.md), since the table of R64
gives the badge number no range. A CONTACT equal to the rehearsal contact state changes nothing, and another
acts as a change of the contact does, the real circuit's level as it was; a REX acts as a press, disregarded
where the REX enable is clear. Both have count 0. The model's choices in the check and at the passage stand
here too (notes/assumptions/17.md, notes/assumptions/35.md). -/
def Obligations.InjectSuppliesOneEvent : Prop :=
  ∀ (notify : Bool) (p : InjectParams) (s : State) (su : Setup), ReadyFor s su →
    let done : Nat → State → Prop := fun count t =>
      exec (.inject notify p) s = .next (answered su notify .done (some count) (some 0) t)
    let seen : LineNo → State → State := fun l t =>
      modLine l (fun e => { e with holdOff := some (p.badge, s.clock.now) }) t
    (s.mode.rehearsal = false → exec (.inject notify p) s =
      .next (answered su notify .notRehearsal none none s)) ∧
    (s.mode.rehearsal = true →
      2 < p.event ∨ (p.event = 0 ∧ (23 < p.unit ∨ 15 < p.issue)) ∨
        (p.event = 1 ∧ (11 < p.unit ∨ 1 < p.contact)) ∨ (p.event = 2 ∧ 11 < p.unit) →
      exec (.inject notify p) s = .next (answered su notify .range none none s)) ∧
    (∀ l : LineNo, s.mode.rehearsal = true → p.event = 0 → l.val = p.unit → p.issue ≤ 15 →
      (s.lines[l].desc.kind = .unused → done 3 (seen l s)) ∧
      (s.lines[l].desc.kind ≠ .unused →
        ChecksInOrder l ⟨p.site, p.badge, p.issue, s.clock.now⟩ s s fun a t =>
          done (a.elim 0 (·.lamp.code)) (a.elim t fun _ => seen l t))) ∧
    (∀ (d : DoorNo) (c : Contact), s.mode.rehearsal = true → p.event = 1 → d.val = p.unit →
      Contact.ofCode p.contact = some c →
      (s.doors[d].contact = c → done 0 s) ∧
      (s.doors[d].contact ≠ c → ContactActs d c (fun e => { e with contact := c }) s (done 0))) ∧
    ∀ d : DoorNo, s.mode.rehearsal = true → p.event = 2 → d.val = p.unit →
      (s.doors[d].entry.rexEnable = false → done 0 s) ∧
      (s.doors[d].entry.rexEnable = true → RexActs d s (done 0))

/-! ### Reader lines and presentations -/

/-- FRAME_END and READER_OFFLINE: in CLEARING every byte is discarded; a bad frame raises the line's
bad-frame counter, saturating, and does nothing else; a valid frame restarts supervision, brings the
line ONLINE, sets or clears the tamper flag, and a PRESENT frame joins the line's presentations with
the time of its last byte; a line whose timer stands at 0 goes OFFLINE with its record. That READER_OFFLINE
at a line whose timer does not stand at 0 changes nothing is the model's choice (notes/assumptions/6.md),
and so is the list of presentations that wait for PRESENTATION (notes/assumptions/7.md). The records of a valid
frame are exact: READER_ONLINE with the frame's kind at an OFFLINE line, and then READER_TAMPER with the
new state where the tamper flag changes. -/
def Obligations.FramesSuperviseTheLine : Prop :=
  ∀ (l : LineNo) (bytes : List Byte) (framing : Bool) (at_ : Stamp) (s : State),
    (s.regs.run = .clearing → exec (.frameEnd l bytes framing at_) s = .next s) ∧
    (s.regs.run ≠ .clearing → judgeFrame bytes framing = none →
      exec (.frameEnd l bytes framing at_) s =
        .next (modLine l (fun e => { e with bad := min 65535 (e.bad + 1) }) s)) ∧
    (∀ k : FrameKind, s.regs.run ≠ .clearing → judgeFrame bytes framing = some k →
      ∃ t : State, exec (.frameEnd l bytes framing at_) s = .next t ∧
        t.lines[l] = { s.lines[l] with
          online := true
          timer := some 96
          tamper := decide (k = .tamper)
          waiting := if k = .present then s.lines[l].waiting ++ [framePresentation bytes at_]
            else s.lines[l].waiting } ∧
        (∀ l' : LineNo, l' ≠ l → t.lines[l'] = s.lines[l']) ∧
        (let alive := modLine l (fun e => { e with online := true, timer := some 96 }) s
        let up := if s.lines[l].online = true then alive else report (.readerOnline l k) alive
        let told := if s.lines[l].tamper = decide (k = .tamper) then up
          else report (.readerTamper l (k == .tamper))
            (modLine l (fun e => { e with tamper := k == .tamper }) up)
        t.link = told.link ∧ t.ram = told.ram ∧ t.regs = told.regs) ∧
        t.clock = s.clock ∧ t.mode = s.mode ∧ t.cal = s.cal ∧ t.table = s.table ∧
        t.zones = s.zones ∧ t.doors = s.doors ∧ t.pay = s.pay ∧ t.bells = s.bells ∧
        t.fire = s.fire) ∧
    (s.lines[l].online = true → s.lines[l].timer = some 0 →
      exec (.readerOffline l) s = .next (report (.readerOffline l s.lines[l].bad)
        (modLine l (fun e => { e with online := false, timer := none }) s))) ∧
    (s.lines[l].online = false ∨ s.lines[l].timer ≠ some 0 →
      exec (.readerOffline l) s = .next s)

/-- Which frames are valid: a kind a reader sends, of its length, without framing error, with its check
byte, and for PRESENT an issue level of 0 to 15. -/
def Obligations.ValidFramesAreJudged : Prop :=
  ∀ (bytes : List Byte) (framing : Bool) (k : FrameKind), judgeFrame bytes framing = some k ↔
    framing = false ∧ bytes.length = k.length ∧ bytes.head? = some (byteOf k.code) ∧
    bytes.getLast? = some (checkByte bytes.dropLast) ∧
    (k = .present → ∀ issue : Byte, bytes[7]? = some issue → issue.toNat ≤ 15)

/-- PRESENTATION, the presentation of a line taken: AMBER out of service, with no record, outside
RUNNING and ISOLATED, in rehearsal and on an UNUSED line; silent for a badge held off; AMBER HOLD and a
hold gap without room; RED with a REFUSED record for a badge not in the index; and at a SECURE CARD door
whose checks all pass GREEN, with a grant, a release, and a place reserved in the target zone and in
the holding queue. -/
def Obligations.PresentationIsDecidedInOrder : Prop :=
  ∀ (l : LineNo) (p : Presentation) (s : State), nextOnLine l p s = true →
    let taken := modLine l (fun e => { e with waiting := e.waiting.tail }) s
    let answer : Answer → State → State := fun a t =>
      modLine l (fun e => { e with holdOff := some (p.badge, p.time), answer := some a }) t
    let inService := gatesRun s = true ∧ s.mode.rehearsal = false ∧ s.lines[l].desc.kind ≠ .unused
    let c : Instr := .presentation l p
    (¬ inService → exec c s = .next (answer ⟨.amber, 50⟩ taken)) ∧
    (∀ role : Role, inService → s.lines[l].desc.kind = .clockOnly role →
      heldOff s.lines[l].holdOff p = true → exec c s = .next taken) ∧
    (∀ role : Role, inService → s.lines[l].desc.kind = .clockOnly role →
      heldOff s.lines[l].holdOff p = false → hasRoom s = false →
      exec c s = .next (answer ⟨.amber, 10⟩
        { taken with link := { s.link with holdGap := min 65535 (s.link.holdGap + 1) } })) ∧
    (∀ (role : Role) (su : Setup), inService → s.lines[l].desc.kind = .clockOnly role →
      heldOff s.lines[l].holdOff p = false → hasRoom s = true → s.link.setup = some su →
      su.site = p.site → lookupBadge p.badge s.table.index = none →
      exec c s = .next (answer ⟨.red, 30⟩ (handOver false p.time
        (.refused none p.badge p.issue l none .unknownBadge) taken))) ∧
    ∀ (d : DoorNo) (su : Setup) (slot : Nat) (w : Worker), inService →
      s.lines[l].desc.kind = .doorEntry d → fireActive s = false →
      heldOff s.lines[l].holdOff p = false → hasRoom s = true → s.link.setup = some su →
      su.site = p.site → lookupBadge p.badge s.table.index = some slot →
      workerAt s slot = some w → w.issue = p.issue → w.suspended = false →
      grantNames s slot = false →
      let e := s.doors[d]
      e.entry.mode = .card → e.state = .secure → e.grant = none → e.cmd = .locked →
      e.entry.isClocking = false → w.location = e.entry.fromZone →
      (∀ i : Fin 15, i.val + 1 = e.entry.toZone.val →
        s.zones[i].present = true ∧ s.zones[i].type ≠ .closed ∧ w.profile ≠ 0 ∧
        e.entry.profiles.getLsbD w.profile = true ∧
        max w.clearance s.lines[l].desc.level ≤ s.zones[i].ceiling ∧
        (s.zones[i].capacity ≠ 0 →
          s.zones[i].occupancy + s.zones[i].reserved < s.zones[i].capacity)) →
      ∃ t : State, exec c s = .next t ∧
        t.doors[d].state = .released ∧ t.doors[d].cmd = .released ∧
        t.doors[d].release = some (e.entry.release * 16) ∧
        t.doors[d].grant =
          some ⟨slot, l, true, e.entry.fromZone, e.entry.toZone, p.time, .passage, false⟩ ∧
        (∀ d' : DoorNo, d' ≠ d → t.doors[d'] = s.doors[d']) ∧
        t.link = { s.link with reserved := s.link.reserved + 1 } ∧
        (∀ i : Fin 15, t.zones[i] = { s.zones[i] with reserved :=
          if i.val + 1 = e.entry.toZone.val then s.zones[i].reserved + 1
          else s.zones[i].reserved }) ∧
        t.lines[l].answer = some ⟨.green, min 255 (e.entry.release * 10)⟩ ∧
        t.lines[l].holdOff = some (p.badge, p.time) ∧
        t.table = s.table ∧ t.clock = s.clock ∧ t.ram = s.ram

/-! ### Doors -/

/-- CONTACT_CHANGE: a change that alters no contact state, and every change in rehearsal, moves the
accepted level alone. An opening at a SECURE door is a forced open, with its record and DOOR_ALARM; an
opening at a RELEASED door ends the release, relocks the door and starts the held timer; a closing at an OPEN
door secures it, and at a HELD or FORCED door makes DOOR_RESTORED; any other change is followed. A finding
that stands at the door is kept (R81). The grant of a RELEASED door ends in a passage, in the order of R77:
the worker moves to the target zone with both counts, the zone's reservation is given back, the punch kind
opens or closes the interval as of the presentation time, and one record of that kind, with the fields of R79,
takes the place reserved for it; then a worker still ON whose deadline has been reached is closed (R116),
waits for room, or is left to another grant. That an interval which the passage itself opens is closed there
too is the model's choice (notes/assumptions/35.md), and so is the field of the finding
(notes/assumptions/29.md). -/
def Obligations.ContactChangesActByDoorState : Prop :=
  ∀ (d : DoorNo) (closed : Bool) (s : State),
    let e := s.doors[d]
    let c := contactOf e.entry.polarity closed
    (s.mode.rehearsal = true ∨ c = e.contact → exec (.contactChange d closed) s =
      .next (modDoor d (fun e => { e with circuit := closed }) s)) ∧
    (s.mode.rehearsal = false → c ≠ e.contact →
      ContactActs d c (fun e => { e with circuit := closed, contact := c }) s fun t =>
        exec (.contactChange d closed) s = .next t)

/-- REX_PRESS, RELEASE_EXPIRY and HELD_EXPIRY: a press is disregarded in rehearsal, in CLEARING and at a
door whose REX enable is clear; it releases a SECURE door with no grant, starts a RELEASED door's timer
again with its grant kept, starts a window, or one afresh, at an INACTIVE or FAULT door, with STILL_FAULTED
where a CLEAR_FAULT check of the door runs, and does nothing at a door that stands open or free. A release
timer at 0 secures a RELEASED door, lapsing its grant with cause EXPIRY and one LAPSED record in the place
reserved for it, the closing of a worker past its deadline after that, and ends a window; a held timer at 0
makes an OPEN door HELD, with its record and DOOR_ALARM. The timers act in rehearsal too, the relay LOCKED.
That the two expiries change nothing where no timer stands at 0, or at a door whose state has none, is the
model's choice (notes/assumptions/6.md). -/
def Obligations.RexAndTimersMoveTheDoor : Prop :=
  ∀ (d : DoorNo) (s : State),
    let e := s.doors[d]
    (s.mode.rehearsal = true ∨ s.regs.run = .clearing ∨ e.entry.rexEnable = false →
      exec (.rexPress d) s = .next s) ∧
    (s.mode.rehearsal = false → s.regs.run ≠ .clearing → e.entry.rexEnable = true →
      RexActs d s (fun t => exec (.rexPress d) s = .next t) ∧
      ∀ (notify : Bool) (su : Setup), e.state = .fault → s.regs.run = .running →
        s.linkAnswers = [] → s.link.setup = some su →
        s.link.request = some ⟨.clearFault d.val, notify, .checking, 0, 0⟩ →
        exec (.rexPress d) s = .next (answered su notify .stillFaulted none none
          (modDoor d (fun e =>
            commanded s .released { e with release := some (e.entry.release * 16) }) s))) ∧
    (e.release ≠ some 0 → exec (.releaseExpiry d) s = .next s) ∧
    (e.release = some 0 →
      let secured := modDoor d (fun e => { entered s .secure .locked e with grant := none }) s
      (e.state = .released → e.grant = none → exec (.releaseExpiry d) s = .next secured) ∧
      (∀ (g : Grant) (w : Worker), e.state = .released → e.grant = some g →
        workerAt s g.slot = some w → gatesRun s = true →
        exec (.releaseExpiry d) s = .next (grantEnded g.slot (handOver true s.clock.now
          (.lapsed g.slot w.badge d g.line g.inward g.kind .expiry g.time)
          (modZone g.target (fun z => { z with reserved := z.reserved - 1 }) secured)))) ∧
      (e.state = .inactive ∨ e.state = .fault → exec (.releaseExpiry d) s =
        .next (modDoor d (fun e => commanded s .locked { e with release := none }) s)) ∧
      (e.state ≠ .released → e.state ≠ .inactive → e.state ≠ .fault →
        exec (.releaseExpiry d) s = .next s)) ∧
    (e.state ≠ .open_ ∨ e.held ≠ some 0 → exec (.heldExpiry d) s = .next s) ∧
    ∀ start : Stamp, e.state = .open_ → e.held = some 0 → e.openStart = some start →
      exec (.heldExpiry d) s = .next (raise .doorAlarm
        (report (.doorHeld d e.entry.heldLimit start)
          (modDoor d (fun e => { entered s .held .locked e with alarmStart := some start }) s)))

/-- SETTLE_CHECK, DRIFT_FINDING and CLEAR_FAULT. A settle check that matches ends. A finding that stands is
taken by the command of its kind: it sets the mark, hands over the DOOR_FAULT record, raises DOOR_ALARM, and
puts a door that is SECURE, OPEN, HELD, FORCED or FREE in FAULT, leaving INACTIVE and EGRESS; a RELEASED door
goes to FAULT with its grant lapsed, the LAPSED record after DOOR_FAULT, and the closing of a worker past its
deadline after that. With the mark set already no more is made. CLEAR_FAULT: RANGE, then FIRE_ACTIVE;
a door without its mark is answered DONE, count 0. At a supervised door a REX window ends, the relay is
LOCKED, and a settle check of four beat ends runs with the request in progress; one not supervised is
restored at once. A check that matches restores the door: mark cleared, door recomputed, DOOR_RESTORED
with the time of the finding, DONE, count 1; one that mismatches answers STILL_FAULTED. That the two commands change nothing where
no check has run out and no finding stands is the model's choice (notes/assumptions/6.md), and so are the
finding that a door keeps until its command (notes/assumptions/29.md) and the state in its record, which is
that of the door at the take (notes/assumptions/42.md). -/
def Obligations.RelaySupervisionFindsFaults : Prop :=
  (∀ (d : DoorNo) (s : State),
    let e := s.doors[d]
    (e.found.map (·.kind) ≠ some .settle →
      (e.settle ≠ some 0 → exec (.settleCheck d) s = .next s) ∧
      (e.settle = some 0 → checksDoor s d = false → exec (.settleCheck d) s =
        .next (modDoor d (fun e => { e with settle := none, disagree := 0 }) s))) ∧
    (e.found.map (·.kind) ≠ some .drift → exec (.driftFinding d) s = .next s) ∧
    ∀ (c : Instr) (f : RelayFinding), e.found = some f →
      (c = .settleCheck d ∧ f.kind = .settle ∧ (checksDoor s d = false ∨ e.settle ≠ some 0)) ∨
        (c = .driftFinding d ∧ f.kind = .drift) →
      (e.mark = true → exec c s = .next (modDoor d (fun e => { e with found := none }) s)) ∧
      (e.mark = false →
        let told := raise .doorAlarm (report (.doorFault d f.kind f.cmd f.readback e.state)
          (modDoor d (fun e => { e with found := none, mark := true, faultTime := s.clock.now }) s))
        (e.state = .inactive ∨ e.state = .egress ∨ e.state = .fault → exec c s = .next told) ∧
        (e.state = .secure ∨ e.state = .open_ ∨ e.state = .held ∨ e.state = .forced ∨
            e.state = .free ∨ (e.state = .released ∧ e.grant = none) →
          exec c s = .next (modDoor d (entered s .fault .locked) told)) ∧
        ∀ (g : Grant) (w : Worker), e.state = .released → e.grant = some g →
          workerAt s g.slot = some w → gatesRun s = true →
          exec c s = .next (modDoor d (entered s .fault .locked) (grantEnded g.slot
            (handOver true s.clock.now
              (.lapsed g.slot w.badge d g.line g.inward g.kind .fault g.time)
              (modZone g.target (fun z => { z with reserved := z.reserved - 1 })
                (modDoor d (fun e => { e with grant := none }) told))))))) ∧
  ∀ (notify : Bool) (door : Nat) (s : State) (su : Setup),
    (ReadyFor s su → 11 < door → exec (.clearFault notify door) s =
      .next (answered su notify .range none none s)) ∧
    (∀ d : DoorNo, s.regs.run = .running → s.linkAnswers = [] → s.link.ret = none →
      s.link.setup = some su → fireActive s = false → s.doors[d].settle = some 0 →
      s.link.request = some ⟨.clearFault d.val, notify, .checking, 0, 0⟩ →
      (s.doors[d].readback ≠ s.doors[d].cmd → exec (.settleCheck d) s =
        .next (answered su notify .stillFaulted none none
          (modDoor d (fun e => { e with settle := none, disagree := 0 }) s))) ∧
      (s.doors[d].readback = s.doors[d].cmd →
        ∃ doors : Vector Door 12,
          exec (.settleCheck d) s = .next (answered su notify .done (some 1) none
            (report (.doorRestored d .fault s.doors[d].faultTime) { s with doors := doors })) ∧
          doors[d].mark = false ∧ doors[d].entry = s.doors[d].entry ∧
          doors[d].state = restingState { s.doors[d] with mark := false } ∧
          ∀ d' : DoorNo, d' ≠ d → doors[d'] = s.doors[d'])) ∧
    ∀ d : DoorNo, ReadyFor s su → d.val = door →
      let e := s.doors[d]
      (fireActive s = true → exec (.clearFault notify door) s =
        .next (answered su notify .fireActive none none s)) ∧
      (fireActive s = false → e.mark = false → exec (.clearFault notify door) s =
        .next (answered su notify .done (some 0) none s)) ∧
      (fireActive s = false → e.mark = true → e.state = .fault → e.entry.supervised = true →
        exec (.clearFault notify door) s = .next { modDoor d (fun e => { e with
            release := none
            cmd := .locked
            settle := some 4
            disagree := 0 }) s with
          link := { s.link with request := some ⟨.clearFault door, notify, .checking, 0, 0⟩ } }) ∧
      (fireActive s = false → e.mark = true → e.entry.supervised = false →
        ∃ doors : Vector Door 12,
          exec (.clearFault notify door) s = .next (answered su notify .done (some 1) none
            (report (.doorRestored d .fault e.faultTime) { s with doors := doors })) ∧
          doors[d].mark = false ∧ doors[d].entry = e.entry ∧
          doors[d].state = restingState { e with mark := false } ∧
          ∀ d' : DoorNo, d' ≠ d → doors[d'] = s.doors[d'])

/-! ### Deadlines and closings -/

/-- DEADLINE_REACHED and WAITING_CLOSING_SERVED: the first worker reached is left for the entry to RUNNING
while the gates do not run; else it is left to the end of a grant that names it, waits where there is no room,
and is closed at once otherwise; a waiting closing is made in RUNNING when room appears. A closing leaves the
worker OFF at the same location, with the additions of the pay calculator, touches no other worker, and makes
one AUTO_CLOSE record of cause DEADLINE with the worker, the location, the interval and what the closing
handed back, in a free place and with the plant time of the closing. Workers are taken in ascending order of
deadline, and then of slot. The due marks that counting sets, and that nothing changes where none stands, are
the model's choice (notes/assumptions/6.md), and serving a waiting closing outside a drain is its reading of
R113 (notes/assumptions/10.md). -/
def Obligations.DeadlinesCloseIntervals : Prop :=
  ∀ s : State,
    (∀ pick : OpenInterval → Bool, s.table.workers.Pairwise (fun a b => a.1 < b.1) →
      let at_ : Nat → Option OpenInterval := fun slot => (workerAt s slot).bind (·.interval)
      let deadline : Nat → Nat := fun slot => (at_ slot).elim 0 (·.deadline)
      (∀ slot : Nat, slot ∈ slotsByDeadline pick s ↔ (at_ slot).any pick = true) ∧
      (slotsByDeadline pick s).Pairwise fun a b =>
        deadline a < deadline b ∨ (deadline a = deadline b ∧ a < b)) ∧
    (slotsByDeadline (·.due) s = [] → exec .deadlineReached s = .next s) ∧
    (waitingSlots s = [] → exec .waitingClosingServed s = .next s) ∧
    ∀ (slot : Nat) (w : Worker) (i : OpenInterval) (rest : List Nat),
      workerAt s slot = some w → w.interval = some i →
        (slotsByDeadline (·.due) s = slot :: rest →
          let left : OpenInterval := { i with due := false }
          (gatesRun s = false ∨ grantNames s slot = true → exec .deadlineReached s =
            .next (setWorker slot { w with interval := some left } s)) ∧
          (gatesRun s = true → grantNames s slot = false → hasRoom s = false →
            exec .deadlineReached s =
              .next (setWorker slot { w with interval := some { left with waiting := true } } s)) ∧
          (gatesRun s = true → grantNames s slot = false → hasRoom s = true →
            exec .deadlineReached s = .next (autoClosed slot .deadline w left s))) ∧
        (waitingSlots s = slot :: rest → s.regs.run = .running → hasRoom s = true →
          withdrawWaits s = false →
          exec .waitingClosingServed s = .next (autoClosed slot .deadline w i s) ∧
          (autoClosed slot .deadline w i s).table = { s.table with
            workers := putSlot slot (closing s.cal s.pay w i none).1 s.table.workers })

/-- What a closing does. A minute is HOL when its day's type carries HOLIDAY, else night when its minute of
day lies in the night window, which may wrap midnight, and else day. The effective in is Ts within the grace and the rounded t_in otherwise, never
before last e_out; the effective out is Te within its grace, at least Te after it, rounded and LEFT_EARLY
before it, and for an auto-close Te with MISSED_OUT or the effective in. The break is deducted once, from
day minutes first, then night, then holiday. Overtime is what carries Cday past the threshold, taken from
day minutes and then from night minutes, and takes no holiday minute. The class minutes sum to the span
less the break; Cday takes the net span, saturating at 4095; last e_out never falls; each accumulator takes
its addition, saturating at 65535, and SATURATED is set when one was cut; the interval is removed; and
every other field of the record stays, the static fields, the key, the location and the muster flag among
them. -/
def Obligations.ClosingAddsTheClassMinutes : Prop :=
  (∀ (cal : Calendar) (p : PayTables) (sec : Nat),
    let minute := sec % 86400 / 60
    let holiday := cal.holidays.getD (dayType cal (sec / 86400)) false = true
    let night := (p.nStart < p.nEnd ∧ p.nStart ≤ minute ∧ minute < p.nEnd) ∨
      (p.nEnd < p.nStart ∧ (p.nStart ≤ minute ∨ minute < p.nEnd))
    (holiday → minuteKind cal p sec = .holiday) ∧
    (¬ holiday → night → minuteKind cal p sec = .night) ∧
    (¬ holiday → ¬ night → minuteKind cal p sec = .day) ∧
    ∀ (k : MinuteKind) (m : Nat), countMinutes cal p k sec m =
      (List.range m).countP fun j => minuteKind cal p (sec + j * 60) == k) ∧
  ∀ (cal : Calendar) (p : PayTables) (w : Worker) (i : OpenInterval) (tOut : Option Nat),
    let x := (closing cal p w i tOut).1
    let r := (closing cal p w i tOut).2
    let rule := payRule p i.rule
    let m := if r.eOut ≤ r.eIn then 0 else (r.eOut - r.eIn) / 60
    let dm := countMinutes cal p .day r.eIn m
    let n := countMinutes cal p .night r.eIn m
    let h := countMinutes cal p .holiday r.eIn m
    (∀ c : ShiftRun, i.captured = some c →
      (i.tIn ≤ c.ts + rule.graceLate * 60 → r.eIn = max c.ts w.lastEOut ∧ r.late = false) ∧
      (c.ts + rule.graceLate * 60 < i.tIn →
        r.eIn = max (max c.ts (roundIn rule i.tIn)) w.lastEOut ∧ r.late = true) ∧
      (tOut = none → r.eOut = c.te ∧ r.leftEarly = false ∧ r.missedOut = true) ∧
      ∀ t : Nat, tOut = some t → r.missedOut = false ∧
        (c.te ≤ t → r.eOut = max c.te (roundOut rule t) ∧ r.leftEarly = false) ∧
        (t < c.te → c.te ≤ t + rule.graceOut * 60 → r.eOut = c.te ∧ r.leftEarly = false) ∧
        (t + rule.graceOut * 60 < c.te → r.eOut = roundOut rule t ∧ r.leftEarly = true)) ∧
    (i.captured = none →
      r.eIn = max (roundIn rule i.tIn) w.lastEOut ∧ r.late = false ∧ r.leftEarly = false ∧
      r.missedOut = false ∧ (tOut = none → r.eOut = r.eIn) ∧
      ∀ t : Nat, tOut = some t → r.eOut = roundOut rule t) ∧
    dm + n + h = m ∧
    (r.tookBreak = true ↔
      w.breakTaken = false ∧ 0 < rule.breakMin ∧ rule.breakAt ≤ w.cday + m) ∧
    r.breakMin = (if r.tookBreak = true then min rule.breakMin m else 0) ∧
    (let dm1 := dm - r.breakMin
    let n1 := n - (r.breakMin - dm)
    let h1 := h - (r.breakMin - (dm + n))
    r.ot = min (w.cday + (dm1 + n1 + h1) - rule.overtimeAt) (dm1 + n1) ∧
    r.reg = dm1 - r.ot ∧ r.night = n1 - (r.ot - dm1) ∧ r.hol = h1) ∧
    r.reg + r.night + r.ot + r.hol + r.breakMin = m ∧ r.reg + r.night + r.ot ≤ dm + n ∧ r.hol ≤ h ∧
    (tOut = none → i.captured = none → r.reg + r.night + r.ot + r.hol = 0) ∧
    (r.saturated = true ↔ 65535 < w.reg + r.reg ∨ 65535 < w.night + r.night ∨
      65535 < w.ot + r.ot ∨ 65535 < w.hol + r.hol) ∧
    r.grade = w.grade ∧
    x = { w with
      interval := none
      cday := min 4095 (w.cday + (r.reg + r.night + r.ot + r.hol))
      breakTaken := w.breakTaken || r.tookBreak
      lastEOut := max w.lastEOut r.eOut
      reg := min 65535 (w.reg + r.reg)
      night := min 65535 (w.night + r.night)
      ot := min 65535 (w.ot + r.ot)
      hol := min 65535 (w.hol + r.hol)
      saturated := w.saturated || r.saturated }

/-- The rounding functions, for a quantum of at least 1: under FAVOUR_PLANT round_in is the least
multiple of q × 60 not less than t and round_out the greatest not greater; under NEAREST both are
floor((t + q × 30) / (q × 60)) × q × 60; and a time already on a multiple stays. -/
def Obligations.RoundingKeepsToTheQuantum : Prop :=
  ∀ (r : PayRule) (t : Nat), 1 ≤ r.quantum →
    let q := r.quantum * 60
    (r.rounding = .favourPlant →
      q ∣ roundIn r t ∧ t ≤ roundIn r t ∧ (∀ n : Nat, q ∣ n → t ≤ n → roundIn r t ≤ n) ∧
      q ∣ roundOut r t ∧ roundOut r t ≤ t ∧ (∀ n : Nat, q ∣ n → n ≤ t → n ≤ roundOut r t)) ∧
    (r.rounding = .nearest →
      roundIn r t = (t + r.quantum * 30) / q * q ∧ roundOut r t = roundIn r t) ∧
    (q ∣ t → roundIn r t = t ∧ roundOut r t = t)

/-! ### Bells -/

/-- BELL_ENTRY_REACHED and SOUNDING_END: the first entry reached leaves the list, and sounds on each
circuit of its mask that is not in EVACUATE when the gates run, neither BELLS_OFF nor REHEARSAL is in force
and its day's type is in its mask, and is passed without sound otherwise; a sounding whose beats have run
out becomes IDLE. With e beats elapsed, the output of a sounding is on until its length has run out, under
STEADY throughout, and under PULSED and TRIPLE in each even second of sixteen beats; that of an EVACUATE
circuit in the first, third and fifth half second of its cycle of 64 beats; IDLE and CLEARING are silent.
The list of the entries that counting has reached, and that the two commands change
nothing where no entry and no run-out sounding stands, are the model's choice (notes/assumptions/6.md). -/
def Obligations.BellEntriesSound : Prop :=
  ∀ (s : State) (c : CircuitNo),
    (s.bells.due = [] → exec .bellEntryReached s = .next s) ∧
    (∀ (day : Nat) (e : BellEntry) (rest : List (Nat × BellEntry)), s.bells.due = (day, e) :: rest →
      let rings := gatesRun s = true ∧ s.mode.bellsOff = false ∧ s.mode.rehearsal = false ∧
        e.days.getLsbD (dayType s.cal day) = true
      let beats := if e.pattern = .triple then 80 else e.duration * 16
      (¬ rings → exec .bellEntryReached s =
        .next { s with bells := { s.bells with due := rest } }) ∧
      (rings → ∃ circuits : Vector Circuit 8,
        exec .bellEntryReached s =
          .next { s with bells := { s.bells with due := rest, circuits := circuits } } ∧
        ∀ k : CircuitNo, circuits[k] =
          (if e.circuits.getLsbD k.val = true ∧ s.bells.circuits[k].isEvac = false then
            .sounding e.pattern beats beats
          else s.bells.circuits[k]))) ∧
    (∀ (p : Pattern) (total : Nat), s.bells.circuits[c] = .sounding p total 0 →
      exec (.soundingEnd c) s = .next (modCircuit c (fun _ => .idle) s)) ∧
    ((∀ (p : Pattern) (total : Nat), s.bells.circuits[c] ≠ .sounding p total 0) →
      exec (.soundingEnd c) s = .next s) ∧
    (s.regs.run = .clearing ∨ s.bells.circuits[c] = .idle → circuitOutput s c = false) ∧
    (s.regs.run ≠ .clearing → ∀ e : Nat,
      (∀ (p : Pattern) (n : Nat), s.bells.circuits[c] = Circuit.beat^[e] (.sounding p n n) →
        (circuitOutput s c = true ↔ e < n ∧ (p = .steady ∨ e / 16 % 2 = 0))) ∧
      (s.bells.circuits[c] = Circuit.beat^[e] (.evacuate 0) →
        let p := e % 64
        (circuitOutput s c = true ↔ p < 8 ∨ (16 ≤ p ∧ p < 24) ∨ (32 ≤ p ∧ p < 40))))

/-! ### Fire and muster -/

/-- FIRE_ON: the fire state is ALARM with the captured time, the muster list is pending, FIRE_ON is raised
outside CLEARING, every door is in EGRESS with no grant, released and its mark kept, and every circuit of
the evacuation mask is in EVACUATE, one already there keeping its phase. Outside CLEARING the FIRE_ON record
carries the run state, the number of grants and the repeat flag, the LAPSED records of the grants follow it
in door order, where no worker under a grant is past its deadline, and a CLEAR_FAULT check in progress is
answered FIRE_ACTIVE after them. R152 says that no assertion can
arise in ALARM; that FIRE_ON there changes nothing is the model's choice (notes/assumptions/6.md). -/
def Obligations.FireOnReleasesEveryDoor : Prop :=
  ∀ s : State,
    (s.fire.state = .alarm → exec .fireOn s = .next s) ∧
    (s.fire.state ≠ .alarm →
      ∃ t : State, exec .fireOn s = .next t ∧ t.fire.state = .alarm ∧ t.fire.musterPending = true ∧
        t.fire.captured = some (if s.clock.valid = true then s.clock.now else ⟨0, 0⟩) ∧
        t.fire.evacMask = s.fire.evacMask ∧
        (s.regs.run ≠ .clearing → flagSet .fireOn t = true ∧ t.fire.deferred = s.fire.deferred) ∧
        (s.regs.run = .clearing → t.link.queue = s.link.queue ∧ t.regs = s.regs ∧
          t.fire.deferred = some (if s.clock.valid = true then s.clock.now else ⟨0, 0⟩,
            grantCount s, s.fire.state == .hold)) ∧
        (s.regs.run ≠ .clearing →
          (∀ (d : DoorNo) (g : Grant) (w : Worker) (i : OpenInterval), s.doors[d].grant = some g →
            workerAt s g.slot = some w → w.interval = some i → s.clock.now.sec < i.deadline) →
          let at_ := if s.clock.valid = true then s.clock.now else ⟨0, 0⟩
          let told := raise .fireOn (handOver false at_
            (.fireOn s.regs.run (grantCount s) (s.fire.state == .hold)) s)
          let lapsed := (List.finRange 12).foldl (fun u d => s.doors[d].grant.elim u fun g =>
            handOver true s.clock.now
              (.lapsed g.slot ((workerAt s g.slot).elim 0 (·.badge)) d g.line g.inward g.kind .fire
                g.time) u) told
          (checkRuns s = false →
            t.link = lapsed.link ∧ t.ram = lapsed.ram ∧ t.regs = lapsed.regs ∧ t.table = s.table) ∧
          ∀ (n : Nat) (notify : Bool) (su : Setup), s.regs.run = .running → s.linkAnswers = [] →
            s.link.ret = none → s.link.setup = some su →
            s.link.request = some ⟨.clearFault n, notify, .checking, 0, 0⟩ →
            let ended := answered su notify .fireActive none none lapsed
            t.link = ended.link ∧ t.ram = ended.ram ∧ t.regs = ended.regs ∧ t.table = s.table) ∧
        (∀ d : DoorNo, t.doors[d].state = .egress ∧ t.doors[d].grant = none ∧
          t.doors[d].mark = s.doors[d].mark ∧ t.doors[d].contact = s.doors[d].contact ∧
          (s.doors[d].state ≠ .egress → t.doors[d].cmd = .released ∧ t.doors[d].release = none ∧
            t.doors[d].held = none ∧ t.doors[d].alarmStart = none)) ∧
        (∀ c : CircuitNo, t.bells.circuits[c] =
          (if s.fire.evacMask.getLsbD c.val = true ∧ s.bells.circuits[c].isEvac = false then
            .evacuate 0 else s.bells.circuits[c])) ∧
        t.clock = s.clock ∧ t.mode = s.mode ∧ t.cal = s.cal ∧ t.lines = s.lines ∧ t.pay = s.pay ∧
        t.table.index = s.table.index)

/-- The presentation check for a line in service. A door reader in fire is AMBER EGRESS, and a MUSTER_POINT
reader outside fire AMBER, each before the hold-off; a badge held off is silent; without room it is AMBER
HOLD and counted. Then the first of steps 5 to 13 that fails gives RED and its REFUSED record, with the slot
from step 7 on, or AMBER BUSY with none. A MUSTER_POINT reader in fire marks the worker and makes MUSTERED.
A CLOCK_ONLY reader opens or closes the worker's interval at once, at the worker's own location. A FREE door
applies the passage at once: the worker moves with both counts, and the one record is that of its punch
kind. A CARD door is released with a grant of the kind and the APB_SOFT flag, and a place reserved in the zone
and in the holding queue. The shift of a worker at t is, of the instances of t's day and the day before that
its assignment gives and whose admission window holds t, the one with the later Ts. That a presentation is taken
from its line's list is the model's choice (notes/assumptions/7.md), and so are the inward flag and the door
of a CLOCK_ONLY record (notes/assumptions/17.md). -/
def Obligations.PresentationStepsDecideInOrder : Prop :=
  (∀ (l : LineNo) (p : Presentation) (s : State), nextOnLine l p s = true → gatesRun s = true →
    s.mode.rehearsal = false → s.lines[l].desc.kind ≠ .unused →
    ChecksInOrder l p s (modLine l (fun e => { e with waiting := e.waiting.tail }) s) fun a t =>
      exec (.presentation l p) s = .next (a.elim t fun x =>
        modLine l (fun e => { e with holdOff := some (p.badge, p.time), answer := some x }) t)) ∧
  ∀ (cal : Calendar) (a : Assignment) (early t : Nat),
    let shiftOn : Nat → Nat → Prop := fun day n =>
      match a with
      | .none_ => False
      | .shift k => n = k
      | .crew c => ∃ crew : Crew, cal.crews[c - 1]? = some crew ∧
        crew.rota[(((day : Int) - crew.anchor) % crew.cycle).toNat]? = some n
    let admitted : ShiftRun → Prop := fun r =>
      (r.day = t / 86400 ∨ r.day + 1 = t / 86400) ∧ shiftOn r.day r.shift ∧ r.shift ≠ 0 ∧
      (∃ x : Shift, cal.shifts[r.shift - 1]? = some x ∧ x.valid = true ∧
        r.ts = r.day * 86400 + x.start * 60 ∧ r.te = r.ts + x.length * 60) ∧
      r.ts ≤ t + early * 60 ∧ t < r.te
    (resolveShift cal a early t = none ↔ ∀ r : ShiftRun, ¬ admitted r) ∧
    ∀ r : ShiftRun, resolveShift cal a early t = some r →
      admitted r ∧ ∀ q : ShiftRun, admitted q → q.ts ≤ r.ts

/-- MUSTER_WRITE_START and MUSTER_WRITE_DONE: a list is begun in RUNNING only, when one is pending and
none is being written, with the snapshot of the in-use workers in zones 1 to 15, each with its slot, zone, clock state,
muster flag and badge, by zone and then by slot; it is written whole, the entries in
order at 16 + 8i and then the header, and a write that was suspended goes on at its next entry, with the header
and the record of its snapshot. The record of a list without an area, NO_AREA set, 0 entries and
TRUNCATED clear, is the model's choice (notes/assumptions/18.md), and so is that MUSTER_WRITE_START and
MUSTER_WRITE_DONE change nothing where no list can be begun or none is being written
(notes/assumptions/6.md). -/
def Obligations.MusterListIsWrittenWhole : Prop :=
  (∀ s : State,
    let entry : Nat × Worker → MusterEntry := fun e =>
      ⟨e.1, e.2.location, e.2.interval.isSome, e.2.muster, e.2.badge⟩
    (∀ m ∈ musterSnapshot s, ∃ e ∈ s.table.workers, e.2.location ≠ 0 ∧ m = entry e) ∧
    (∀ e ∈ s.table.workers, e.2.location ≠ 0 → entry e ∈ musterSnapshot s) ∧
    (s.table.workers.Pairwise (fun a b => a.1 < b.1) → (musterSnapshot s).Pairwise fun a b =>
      a.zone < b.zone ∨ (a.zone = b.zone ∧ a.slot < b.slot))) ∧
  ∀ (s : State) (su : Setup), s.link.setup = some su →
    (s.fire.musterPending = false ∨ s.regs.run ≠ .running ∨ s.link.muster.isSome = true →
      exec .musterWriteStart s = .next s) ∧
    (s.fire.musterPending = true → s.regs.run = .running → s.link.muster = none →
      su.musterArea ≠ 0 → su.musterCapacity ≠ 0 →
      exec .musterWriteStart s = .next { s with
        fire := { s.fire with musterPending := false }
        link := { s.link with
          muster := some ⟨musterSnapshot s, s.clock.now, s.fire.captured.getD ⟨0, 0⟩,
            su.musterArea, su.musterCapacity, 0⟩ } }) ∧
    (s.fire.musterPending = true → s.regs.run = .running → s.link.muster = none →
      su.musterArea = 0 ∨ su.musterCapacity = 0 →
      exec .musterWriteStart s = .next (report
        (.musterWritten (s.fire.captured.getD ⟨0, 0⟩) 0 (musterSnapshot s).length false true)
        { s with fire := { s.fire with musterPending := false } })) ∧
    (s.link.muster = none ∨ s.regs.run ≠ .running → exec .musterWriteDone s = .next s) ∧
    ∀ m : MusterWrite, s.regs.run = .running → s.link.muster = some m → s.linkAnswers = [] →
      exec .musterWriteDone s = .next (handOver false m.writeTime
        (.musterWritten m.captured m.count m.entries.length m.truncated false)
        { s with
          link := { s.link with muster := none }
          ram := writeBytes
            (writeBytes s.ram m.area (16 + 8 * m.next)
              (((m.entries.take m.count).drop m.next).flatMap MusterEntry.bytes))
            m.area 0 m.header })

/-! ### Records -/

/-- Placing a record, while no count waits to be reported: in CLEARING none is placed; without a reserved
or a free place it is lost and counted, saturating; otherwise, outside RUNNING, or in RUNNING behind records
already held, it joins the tail of the holding queue with the next sequence number, a reserved place passing from V to U, and HOLDING is raised
when the queue was empty. -/
def Obligations.RecordsJoinTheHoldingQueue : Prop :=
  ∀ (reserved : Bool) (time : Stamp) (b : RecordBody) (s : State),
    s.link.holdGap = 0 → s.link.lost = 0 ∨ reserved = false ∧ freePlaces s ≤ 1 →
    (s.regs.run = .clearing → handOver reserved time b s = s) ∧
    (s.regs.run ≠ .clearing → reserved = false → freePlaces s = 0 →
      handOver reserved time b s =
        { s with link := { s.link with lost := min 65535 (s.link.lost + 1) } }) ∧
    (s.regs.run ≠ .clearing → s.regs.run ≠ .running ∨ s.link.queue ≠ [] →
      reserved = true ∨ 1 ≤ freePlaces s →
      ∃ t : State, handOver reserved time b s = t ∧
        t.link = { s.link with
          queue := s.link.queue ++ [⟨s.link.seq, time, b, s.link.draws⟩]
          seq := (s.link.seq + 1) % 65536
          draws := s.link.draws + 1
          reserved := if reserved = true then s.link.reserved - 1 else s.link.reserved } ∧
        (s.link.queue = [] → flagSet .holding t = true) ∧
        (reserved = false → freePlaces s = 1 → flagSet .holdFull t = true) ∧
        t.regs.run = s.regs.run ∧ t.ram = s.ram ∧ t.table = s.table ∧ t.doors = s.doors ∧
        t.clock = s.clock)

/-- In RUNNING a record of one entry that finds its journal entry EMPTY is written there, its bytes 1 to
31 and then the owner byte 0xF1, leaves the queue, and moves the position and the fill count on by one;
a FILLED entry holds it up, and HOLDING is raised. The bytes of the entries, of one or of two, are those of
10.5 for each kind of record: kind, header, flags, slot and payload. The day, Ts and Te of an UNSCHEDULED punch
or closing, and the old beat of a CLOCK_STEP without an old time, are free (notes/assumptions/4.md). -/
def Obligations.OneEntryRecordsReachTheJournal : Prop :=
  (∀ r : Record,
    let spells := r.spelledAs
    let stamp : Stamp → List Byte := fun x => le32 x.sec ++ [byteOf x.beat]
    let one : Bool → Nat := fun x => if x = true then 1 else 0
    let shift : Option ShiftRun → Byte := fun c => c.elim 0 fun x => byteOf x.shift
    let ways : PassageInfo → Nat := fun p => one p.inward + 2 * one p.apbSoft
    let times : Option ShiftRun → (Nat → Nat → Nat → Prop) → Prop := fun captured ends =>
      ∃ day ts te : Nat,
        (∀ c : ShiftRun, captured = some c → day = c.day ∧ ts = c.ts ∧ te = c.te) ∧ ends day ts te
    match r.body with
    | .punchIn p captured rule deadline late newRun =>
      r.body.entries = 2 ∧ times captured fun day ts te =>
        spells 0x01 (ways p + 4 * one late + 8 * one newRun) p.slot (passageFields p ++ le16 day ++
          [shift captured, byteOf rule] ++ le32 ts ++ le32 te ++ le32 deadline)
    | .punchOut p tIn captured c =>
      r.body.entries = 2 ∧ times captured fun day ts te =>
        spells 0x02 (ways p + 4 * one c.late + 8 * one c.leftEarly + 16 * one c.tookBreak +
            32 * one c.saturated) p.slot
          (passageFields p ++ le32 tIn ++ le16 day ++ [shift captured] ++ le32 ts ++ le32 te ++
            closingFields c)
    | .reentry p => r.body.entries = 1 ∧ spells 0x03 (ways p) p.slot (passageFields p)
    | .strayOut p => r.body.entries = 1 ∧ spells 0x04 (ways p) p.slot (passageFields p)
    | .passage p => r.body.entries = 1 ∧ spells 0x05 (ways p) p.slot (passageFields p)
    | .lapsed slot badge door line inward kind cause time => r.body.entries = 1 ∧
      spells 0x06 (one inward) slot (le32 badge ++ [byteOf door.val, byteOf line.val,
        byteOf kind.code, byteOf cause.code] ++ stamp time)
    | .refused slot badge issue line door reason => r.body.entries = 1 ∧
      spells 0x07 0 (slot.getD 0xFFFF) (le32 badge ++ [byteOf issue, byteOf line.val,
        door.elim 0xFF fun d => byteOf d.val, byteOf reason.code])
    | .autoClose slot badge issue cause location i c =>
      r.body.entries = 2 ∧ times i.captured fun day ts te =>
        spells 0x08 (one c.missedOut + 2 * one c.late + 4 * one c.tookBreak + 8 * one c.saturated) slot
          (le32 badge ++ [byteOf issue, byteOf cause.code, byteOf location.val, byteOf i.rule] ++
            le32 i.tIn ++ le16 day ++ [shift i.captured] ++ le32 ts ++ le32 te ++ le32 i.deadline ++
            closingFields c)
    | .mustered slot badge line zone location on again => r.body.entries = 1 ∧
      spells 0x09 (one on + 2 * one again) slot
        (le32 badge ++ [byteOf line.val, byteOf zone.val, byteOf location.val])
    | .holdGap gap lost => r.body.entries = 1 ∧ spells 0x10 0 0xFFFF (le16 gap ++ le16 lost)
    | .clockStep (some old) cause => r.body.entries = 1 ∧
      spells 0x11 0 0xFFFF (stamp old ++ [byteOf cause.code])
    | .clockStep none cause => r.body.entries = 1 ∧
      ∃ beat : Byte, spells 0x11 0 0xFFFF [0xFF, 0xFF, 0xFF, 0xFF, beat, byteOf cause.code]
    | .syncState old new rho dev => r.body.entries = 1 ∧
      spells 0x12 0 0xFFFF ([byteOf old.code, byteOf new.code] ++ le16 (rho % 65536).toNat ++
        le16 (dev % 65536).toNat)
    | .readerOffline line bad => r.body.entries = 1 ∧
      spells 0x18 0 0xFFFF (byteOf line.val :: le16 bad)
    | .readerOnline line kind => r.body.entries = 1 ∧
      spells 0x19 0 0xFFFF [byteOf line.val, byteOf kind.code]
    | .readerTamper line opened => r.body.entries = 1 ∧
      spells 0x1A 0 0xFFFF [byteOf line.val, byteOf (one opened)]
    | .doorForced door mode => r.body.entries = 1 ∧
      spells 0x20 0 0xFFFF [byteOf door.val, byteOf mode.code]
    | .doorHeld door limit start => r.body.entries = 1 ∧
      spells 0x21 0 0xFFFF ([byteOf door.val, byteOf limit] ++ stamp start)
    | .doorRestored door alarm start => r.body.entries = 1 ∧
      spells 0x22 0 0xFFFF ([byteOf door.val, byteOf alarm.code] ++ stamp start)
    | .doorFault door kind cmd readback state => r.body.entries = 1 ∧
      spells 0x23 0 0xFFFF [byteOf door.val, byteOf kind.code, byteOf cmd.code, byteOf readback.code,
        byteOf state.code]
    | .bellSkipped old count firstDay firstEntry lastDay lastEntry => r.body.entries = 1 ∧
      spells 0x28 0 0xFFFF (le32 old ++ le16 count ++ le16 firstDay ++ [byteOf firstEntry] ++
        le16 lastDay ++ [byteOf lastEntry])
    | .fireOn run lapses again => r.body.entries = 1 ∧
      spells 0x30 (one again) 0xFFFF [byteOf run.code, byteOf lapses]
    | .fireOff captured => r.body.entries = 1 ∧ spells 0x31 0 0xFFFF (stamp captured)
    | .fireAck captured cleared unwritten => r.body.entries = 1 ∧
      spells 0x32 (one unwritten) 0xFFFF (stamp captured ++ le16 cleared)
    | .musterWritten captured entries total truncated noArea => r.body.entries = 1 ∧
      spells 0x33 (one truncated + 2 * one noArea) 0xFFFF
        (stamp captured ++ le16 entries ++ le16 total)) ∧
  ([RunState.clearing, .halted, .loading, .running, .isolated].map (·.code) = List.range 5 ∧
    [SyncState.unsynced, .locked, .holdover].map (·.code) = List.range 3 ∧
    [DoorState.inactive, .secure, .released, .open_, .held, .forced, .free, .egress, .fault].map
      (·.code) = List.range 9 ∧
    [DoorMode.card, .free, .locked].map (·.code) = List.range 3 ∧
    [Relay.locked, .released].map (·.code) = List.range 2 ∧
    [FaultKind.settle, .drift].map (·.code) = List.range 2 ∧
    [Alarm.forced, .held, .fault].map (·.code) = List.range 3 ∧
    [StepCause.sync, .setTime, .load].map (·.code) = List.range 3 ∧
    [CloseCause.deadline, .withdraw].map (·.code) = List.range 2 ∧
    [LapseCause.expiry, .fire, .halt, .mode, .fault].map (·.code) = List.range 5 ∧
    [PunchKind.punchIn, .punchOut, .reentry, .strayOut, .passage].map (·.code) = [1, 2, 3, 4, 5] ∧
    [FrameKind.present, .hello, .tamper].map (·.code) = [0x31, 0x32, 0x33] ∧
    [Reason.badSite, .unknownBadge, .issueMismatch, .suspended, .doorLocked, .doorFault, .zoneAbsent,
      .zoneClosed, .noProfile, .profile, .clearance, .wrongZone, .zoneFull, .notScheduled, .alreadyOn,
      .notOn].map (·.code) = (List.range 16).map (· + 1)) ∧
  ∀ (time : Stamp) (b : RecordBody) (s : State) (su : Setup), s.regs.run = .running →
    s.link.setup = some su → s.linkAnswers = [] → s.link.queue = [] → s.link.holdGap = 0 →
    s.link.lost = 0 → 2 ≤ freePlaces s → b.entries = 1 →
    let r : Record := ⟨s.link.seq, time, b, s.link.draws⟩
    let off := 32 * (s.link.journalPos % 2 ^ su.journalLog)
    (readCell s.ram (addrAt su.journal off) = 0 →
      ∃ t : State, handOver false time b s = t ∧
        t.ram = writeBytes (writeBytes s.ram su.journal (off + 1) r.firstEntry) su.journal off [0xF1] ∧
        t.link = { s.link with
          seq := (s.link.seq + 1) % 65536
          draws := s.link.draws + 1
          contWritten := false
          journalPos := (s.link.journalPos + 1) % 2 ^ su.journalLog
          fill := min (2 ^ su.journalLog) (s.link.fill + 1) } ∧
        t.regs.run = .running ∧ t.table = s.table ∧ t.doors = s.doors ∧ t.clock = s.clock) ∧
    (readCell s.ram (addrAt su.journal off) ≠ 0 →
      handOver false time b s = { s with
        link := { s.link with
          queue := [r]
          seq := (s.link.seq + 1) % 65536
          draws := s.link.draws + 1 }
        regs := { s.regs with events := s.regs.events ||| 0x010#12 } })
end

