-- ==== Sys2Proof/Laws/Memory.lean ====
section
/-! SUPPORT. The shared RAM: every write keeps the canonical form, a byte written reads back, and every
other byte reads as before. -/

namespace Sys2Proof.Machine

/-! ### The canonical form -/

/-- A list in canonical form from an address on is so from every lower one. -/
theorem Memory.wfFrom_mono {lo hi : Nat} (h : lo ≤ hi) :
    ∀ {m : Memory}, Memory.wfFrom hi m = true → Memory.wfFrom lo m = true
  | [], _ => rfl
  | (a, b) :: rest, w => by
    simp only [Memory.wfFrom, Bool.and_eq_true, decide_eq_true_eq] at w ⊢
    exact ⟨⟨⟨by omega, w.1.1.2⟩, w.1.2⟩, w.2⟩

/-- A write of one byte keeps the canonical form. -/
theorem writeCell_wfFrom {lo a : Nat} (ha : lo ≤ a) (hb : a < 4294967296) (v : Byte) :
    ∀ {m : Memory}, Memory.wfFrom lo m = true → Memory.wfFrom lo (writeCell m a v) = true
  | [], _ => by
    by_cases hv : v = Config.unlistedByte <;> simp [writeCell, Memory.wfFrom, hv, ha, hb]
  | (k, w) :: rest, h => by
    simp only [Memory.wfFrom, Bool.and_eq_true, decide_eq_true_eq] at h
    obtain ⟨⟨⟨h1, h2⟩, h3⟩, h4⟩ := h
    unfold writeCell
    split
    · next e =>
      subst e
      split
      · exact Memory.wfFrom_mono (by omega) h4
      · next hv => simp [Memory.wfFrom, ha, hb, h4, hv]
    · split
      · next hlt =>
        split
        · simp [Memory.wfFrom, h1, h2, h3, h4]
        · next hv =>
          have := h3
          simp [Memory.wfFrom, ha, hb, hv, h2, h3, h4]; omega
      · next hne hge =>
        have ih := writeCell_wfFrom (lo := k + 1) (by omega) hb v h4
        simp [Memory.wfFrom, h1, h2, h3, ih]

theorem addrAt_lt (base : Word) (off : Nat) : addrAt base off < 4294967296 := by
  unfold addrAt; omega

/-- A write of one byte keeps the canonical form of the whole RAM. -/
theorem writeCell_wf {m : Memory} (h : m.wf = true) {a : Nat} (ha : a < 4294967296) (v : Byte) :
    Memory.wf (writeCell m a v) = true := writeCell_wfFrom (Nat.zero_le a) ha v h

/-- A write of bytes keeps the canonical form. -/
theorem writeBytes_wf (base : Word) (b : List Byte) :
    ∀ {m : Memory} (off : Nat), m.wf = true → Memory.wf (writeBytes m base off b) = true := by
  induction b with
  | nil => intro m off h; exact h
  | cons x rest ih => intro m off h; exact ih _ (writeCell_wf h (addrAt_lt base off) x)

/-- The host's own writes keep the canonical form. -/
theorem hostWrite_wf (w : HostWrites) :
    ∀ {m : Memory}, m.wf = true → Memory.wf (hostWrite m w) = true := by
  induction w with
  | nil => intro m h; exact h
  | cons x rest ih => intro m h; exact ih (writeCell_wf h x.1.isLt x.2)

/-! ### Reading after a write -/

/-- In a canonical list from `lo` on, a lower address is unlisted. -/
theorem readCell_below {lo a : Nat} (h : a < lo) :
    ∀ {m : Memory}, Memory.wfFrom lo m = true → readCell m a = Config.unlistedByte
  | [], _ => rfl
  | (k, w) :: rest, hw => by
    simp only [Memory.wfFrom, Bool.and_eq_true, decide_eq_true_eq] at hw
    have h1 : a ≠ k := by omega
    have h2 : a < k := by omega
    simp [readCell, h1, h2]

/-- A byte written reads back. -/
theorem readCell_writeCell_same (a : Nat) (v : Byte) :
    ∀ {lo : Nat} {m : Memory}, Memory.wfFrom lo m = true → readCell (writeCell m a v) a = v
  | _, [], _ => by
    by_cases hv : v = Config.unlistedByte <;> simp [writeCell, readCell, hv]
  | _, (k, w) :: rest, h => by
    simp only [Memory.wfFrom, Bool.and_eq_true, decide_eq_true_eq] at h
    unfold writeCell
    split
    · next e =>
      subst e
      split
      · next hv => rw [readCell_below (by omega) h.2, hv]
      · simp [readCell]
    · split
      · next hne hlt =>
        split
        · next hv => simp [readCell, hne, hlt, hv]
        · simp [readCell]
      · next hne hge =>
        have hk : ¬ a < k := hge
        simp only [readCell, if_neg hne, if_neg hk]
        exact readCell_writeCell_same a v h.2

/-- Every other byte reads as before. -/
theorem readCell_writeCell_other {a b : Nat} (hab : b ≠ a) (v : Byte) :
    ∀ {lo : Nat} {m : Memory}, Memory.wfFrom lo m = true → readCell (writeCell m a v) b = readCell m b
  | _, [], _ => by
    by_cases hv : v = Config.unlistedByte
    · simp [writeCell, hv]
    · simp [writeCell, hv, readCell, hab]
  | _, (k, w) :: rest, h => by
    simp only [Memory.wfFrom, Bool.and_eq_true, decide_eq_true_eq] at h
    unfold writeCell
    split
    · next e =>
      subst e
      split
      · by_cases hlt : b < a
        · rw [readCell_below (by omega) h.2]; simp [readCell, hab, hlt]
        · simp [readCell, hab, hlt]
      · simp [readCell, hab]
    · split
      · next hne hlt =>
        split
        · rfl
        · by_cases hb : b < a
          · have h1 : b ≠ k := by omega
            have h2 : b < k := by omega
            simp [readCell, hab, hb, h1, h2]
          · simp [readCell, hab, hb]
      · simp only [readCell]
        split
        · rfl
        · split
          · rfl
          · exact readCell_writeCell_other hab v h.2

/-- A write of bytes leaves every byte outside their addresses as it was. -/
theorem readCell_writeBytes_other (base : Word) (b : List Byte) :
    ∀ {m : Memory} (off x : Nat), m.wf = true → (∀ i < b.length, x ≠ addrAt base (off + i)) →
      readCell (writeBytes m base off b) x = readCell m x := by
  induction b with
  | nil => intro m off x _ _; rfl
  | cons v rest ih =>
    intro m off x hw hx
    have h0 : x ≠ addrAt base off := by simpa using hx 0 (by simp)
    rw [writeBytes, ih (off + 1) x (writeCell_wf hw (addrAt_lt base off) v) (fun i hi => by
      have := hx (i + 1) (by simpa using hi)
      rwa [show off + 1 + i = off + (i + 1) by omega])]
    exact readCell_writeCell_other h0 v hw

/-- One byte written through `writeBytes` reads back. -/
theorem readCell_writeBytes_single (base : Word) (off : Nat) (v : Byte) {m : Memory} (h : m.wf = true) :
    readCell (writeBytes m base off [v]) (addrAt base off) = v :=
  readCell_writeCell_same _ v h

end Sys2Proof.Machine
end

