-- ==== Sys2Proof/Laws/State.lean ====
section
/-! SUPPORT. For each named update of the state, what it sets, and one equation for each field it leaves
alone: no later proof unfolds a record update. -/

namespace Sys2Proof.Machine

/-! ### `modDoor` -/

@[simp] theorem modDoor_doors (d : DoorNo) (f : Door → Door) (s : State) :
    (modDoor d f s).doors = s.doors.set d.val (f s.doors[d]) := rfl
@[simp] theorem modDoor_clock (d : DoorNo) (f : Door → Door) (s : State) :
    (modDoor d f s).clock = s.clock := rfl
@[simp] theorem modDoor_mode (d : DoorNo) (f : Door → Door) (s : State) :
    (modDoor d f s).mode = s.mode := rfl
@[simp] theorem modDoor_cal (d : DoorNo) (f : Door → Door) (s : State) :
    (modDoor d f s).cal = s.cal := rfl
@[simp] theorem modDoor_table (d : DoorNo) (f : Door → Door) (s : State) :
    (modDoor d f s).table = s.table := rfl
@[simp] theorem modDoor_lines (d : DoorNo) (f : Door → Door) (s : State) :
    (modDoor d f s).lines = s.lines := rfl
@[simp] theorem modDoor_zones (d : DoorNo) (f : Door → Door) (s : State) :
    (modDoor d f s).zones = s.zones := rfl
@[simp] theorem modDoor_pay (d : DoorNo) (f : Door → Door) (s : State) :
    (modDoor d f s).pay = s.pay := rfl
@[simp] theorem modDoor_bells (d : DoorNo) (f : Door → Door) (s : State) :
    (modDoor d f s).bells = s.bells := rfl
@[simp] theorem modDoor_fire (d : DoorNo) (f : Door → Door) (s : State) :
    (modDoor d f s).fire = s.fire := rfl
@[simp] theorem modDoor_link (d : DoorNo) (f : Door → Door) (s : State) :
    (modDoor d f s).link = s.link := rfl
@[simp] theorem modDoor_regs (d : DoorNo) (f : Door → Door) (s : State) :
    (modDoor d f s).regs = s.regs := rfl
@[simp] theorem modDoor_ram (d : DoorNo) (f : Door → Door) (s : State) :
    (modDoor d f s).ram = s.ram := rfl
@[simp] theorem modDoor_linkAnswers (d : DoorNo) (f : Door → Door) (s : State) :
    (modDoor d f s).linkAnswers = s.linkAnswers := rfl
@[simp] theorem modDoor_pending (d : DoorNo) (f : Door → Door) (s : State) :
    (modDoor d f s).pending = s.pending := rfl

/-! ### `modLine` -/

@[simp] theorem modLine_lines (l : LineNo) (f : Line → Line) (s : State) :
    (modLine l f s).lines = s.lines.set l.val (f s.lines[l]) := rfl
@[simp] theorem modLine_clock (l : LineNo) (f : Line → Line) (s : State) :
    (modLine l f s).clock = s.clock := rfl
@[simp] theorem modLine_mode (l : LineNo) (f : Line → Line) (s : State) :
    (modLine l f s).mode = s.mode := rfl
@[simp] theorem modLine_cal (l : LineNo) (f : Line → Line) (s : State) :
    (modLine l f s).cal = s.cal := rfl
@[simp] theorem modLine_table (l : LineNo) (f : Line → Line) (s : State) :
    (modLine l f s).table = s.table := rfl
@[simp] theorem modLine_zones (l : LineNo) (f : Line → Line) (s : State) :
    (modLine l f s).zones = s.zones := rfl
@[simp] theorem modLine_doors (l : LineNo) (f : Line → Line) (s : State) :
    (modLine l f s).doors = s.doors := rfl
@[simp] theorem modLine_pay (l : LineNo) (f : Line → Line) (s : State) :
    (modLine l f s).pay = s.pay := rfl
@[simp] theorem modLine_bells (l : LineNo) (f : Line → Line) (s : State) :
    (modLine l f s).bells = s.bells := rfl
@[simp] theorem modLine_fire (l : LineNo) (f : Line → Line) (s : State) :
    (modLine l f s).fire = s.fire := rfl
@[simp] theorem modLine_link (l : LineNo) (f : Line → Line) (s : State) :
    (modLine l f s).link = s.link := rfl
@[simp] theorem modLine_regs (l : LineNo) (f : Line → Line) (s : State) :
    (modLine l f s).regs = s.regs := rfl
@[simp] theorem modLine_ram (l : LineNo) (f : Line → Line) (s : State) :
    (modLine l f s).ram = s.ram := rfl
@[simp] theorem modLine_linkAnswers (l : LineNo) (f : Line → Line) (s : State) :
    (modLine l f s).linkAnswers = s.linkAnswers := rfl
@[simp] theorem modLine_pending (l : LineNo) (f : Line → Line) (s : State) :
    (modLine l f s).pending = s.pending := rfl

/-! ### `modCircuit` -/

@[simp] theorem modCircuit_bells (c : CircuitNo) (f : Circuit → Circuit) (s : State) :
    (modCircuit c f s).bells = { s.bells with circuits := s.bells.circuits.set c.val (f s.bells.circuits[c]) } := rfl
@[simp] theorem modCircuit_clock (c : CircuitNo) (f : Circuit → Circuit) (s : State) :
    (modCircuit c f s).clock = s.clock := rfl
@[simp] theorem modCircuit_mode (c : CircuitNo) (f : Circuit → Circuit) (s : State) :
    (modCircuit c f s).mode = s.mode := rfl
@[simp] theorem modCircuit_cal (c : CircuitNo) (f : Circuit → Circuit) (s : State) :
    (modCircuit c f s).cal = s.cal := rfl
@[simp] theorem modCircuit_table (c : CircuitNo) (f : Circuit → Circuit) (s : State) :
    (modCircuit c f s).table = s.table := rfl
@[simp] theorem modCircuit_lines (c : CircuitNo) (f : Circuit → Circuit) (s : State) :
    (modCircuit c f s).lines = s.lines := rfl
@[simp] theorem modCircuit_zones (c : CircuitNo) (f : Circuit → Circuit) (s : State) :
    (modCircuit c f s).zones = s.zones := rfl
@[simp] theorem modCircuit_doors (c : CircuitNo) (f : Circuit → Circuit) (s : State) :
    (modCircuit c f s).doors = s.doors := rfl
@[simp] theorem modCircuit_pay (c : CircuitNo) (f : Circuit → Circuit) (s : State) :
    (modCircuit c f s).pay = s.pay := rfl
@[simp] theorem modCircuit_fire (c : CircuitNo) (f : Circuit → Circuit) (s : State) :
    (modCircuit c f s).fire = s.fire := rfl
@[simp] theorem modCircuit_link (c : CircuitNo) (f : Circuit → Circuit) (s : State) :
    (modCircuit c f s).link = s.link := rfl
@[simp] theorem modCircuit_regs (c : CircuitNo) (f : Circuit → Circuit) (s : State) :
    (modCircuit c f s).regs = s.regs := rfl
@[simp] theorem modCircuit_ram (c : CircuitNo) (f : Circuit → Circuit) (s : State) :
    (modCircuit c f s).ram = s.ram := rfl
@[simp] theorem modCircuit_linkAnswers (c : CircuitNo) (f : Circuit → Circuit) (s : State) :
    (modCircuit c f s).linkAnswers = s.linkAnswers := rfl
@[simp] theorem modCircuit_pending (c : CircuitNo) (f : Circuit → Circuit) (s : State) :
    (modCircuit c f s).pending = s.pending := rfl

/-! ### `mapCircuits` -/

@[simp] theorem mapCircuits_bells (f : Circuit → Circuit) (s : State) :
    (mapCircuits f s).bells = { s.bells with circuits := s.bells.circuits.map f } := rfl
@[simp] theorem mapCircuits_clock (f : Circuit → Circuit) (s : State) :
    (mapCircuits f s).clock = s.clock := rfl
@[simp] theorem mapCircuits_mode (f : Circuit → Circuit) (s : State) :
    (mapCircuits f s).mode = s.mode := rfl
@[simp] theorem mapCircuits_cal (f : Circuit → Circuit) (s : State) :
    (mapCircuits f s).cal = s.cal := rfl
@[simp] theorem mapCircuits_table (f : Circuit → Circuit) (s : State) :
    (mapCircuits f s).table = s.table := rfl
@[simp] theorem mapCircuits_lines (f : Circuit → Circuit) (s : State) :
    (mapCircuits f s).lines = s.lines := rfl
@[simp] theorem mapCircuits_zones (f : Circuit → Circuit) (s : State) :
    (mapCircuits f s).zones = s.zones := rfl
@[simp] theorem mapCircuits_doors (f : Circuit → Circuit) (s : State) :
    (mapCircuits f s).doors = s.doors := rfl
@[simp] theorem mapCircuits_pay (f : Circuit → Circuit) (s : State) :
    (mapCircuits f s).pay = s.pay := rfl
@[simp] theorem mapCircuits_fire (f : Circuit → Circuit) (s : State) :
    (mapCircuits f s).fire = s.fire := rfl
@[simp] theorem mapCircuits_link (f : Circuit → Circuit) (s : State) :
    (mapCircuits f s).link = s.link := rfl
@[simp] theorem mapCircuits_regs (f : Circuit → Circuit) (s : State) :
    (mapCircuits f s).regs = s.regs := rfl
@[simp] theorem mapCircuits_ram (f : Circuit → Circuit) (s : State) :
    (mapCircuits f s).ram = s.ram := rfl
@[simp] theorem mapCircuits_linkAnswers (f : Circuit → Circuit) (s : State) :
    (mapCircuits f s).linkAnswers = s.linkAnswers := rfl
@[simp] theorem mapCircuits_pending (f : Circuit → Circuit) (s : State) :
    (mapCircuits f s).pending = s.pending := rfl

/-! ### `setWorkers` -/

@[simp] theorem setWorkers_table (s : State) (l : List (Nat × Worker)) :
    (setWorkers s l).table = { s.table with workers := l } := rfl
@[simp] theorem setWorkers_clock (s : State) (l : List (Nat × Worker)) :
    (setWorkers s l).clock = s.clock := rfl
@[simp] theorem setWorkers_mode (s : State) (l : List (Nat × Worker)) :
    (setWorkers s l).mode = s.mode := rfl
@[simp] theorem setWorkers_cal (s : State) (l : List (Nat × Worker)) :
    (setWorkers s l).cal = s.cal := rfl
@[simp] theorem setWorkers_lines (s : State) (l : List (Nat × Worker)) :
    (setWorkers s l).lines = s.lines := rfl
@[simp] theorem setWorkers_zones (s : State) (l : List (Nat × Worker)) :
    (setWorkers s l).zones = s.zones := rfl
@[simp] theorem setWorkers_doors (s : State) (l : List (Nat × Worker)) :
    (setWorkers s l).doors = s.doors := rfl
@[simp] theorem setWorkers_pay (s : State) (l : List (Nat × Worker)) :
    (setWorkers s l).pay = s.pay := rfl
@[simp] theorem setWorkers_bells (s : State) (l : List (Nat × Worker)) :
    (setWorkers s l).bells = s.bells := rfl
@[simp] theorem setWorkers_fire (s : State) (l : List (Nat × Worker)) :
    (setWorkers s l).fire = s.fire := rfl
@[simp] theorem setWorkers_link (s : State) (l : List (Nat × Worker)) :
    (setWorkers s l).link = s.link := rfl
@[simp] theorem setWorkers_regs (s : State) (l : List (Nat × Worker)) :
    (setWorkers s l).regs = s.regs := rfl
@[simp] theorem setWorkers_ram (s : State) (l : List (Nat × Worker)) :
    (setWorkers s l).ram = s.ram := rfl
@[simp] theorem setWorkers_linkAnswers (s : State) (l : List (Nat × Worker)) :
    (setWorkers s l).linkAnswers = s.linkAnswers := rfl
@[simp] theorem setWorkers_pending (s : State) (l : List (Nat × Worker)) :
    (setWorkers s l).pending = s.pending := rfl

/-! ### `setWorker` -/

@[simp] theorem setWorker_table (slot : Nat) (w : Worker) (s : State) :
    (setWorker slot w s).table = { s.table with workers := putSlot slot w s.table.workers } := rfl
@[simp] theorem setWorker_clock (slot : Nat) (w : Worker) (s : State) :
    (setWorker slot w s).clock = s.clock := rfl
@[simp] theorem setWorker_mode (slot : Nat) (w : Worker) (s : State) :
    (setWorker slot w s).mode = s.mode := rfl
@[simp] theorem setWorker_cal (slot : Nat) (w : Worker) (s : State) :
    (setWorker slot w s).cal = s.cal := rfl
@[simp] theorem setWorker_lines (slot : Nat) (w : Worker) (s : State) :
    (setWorker slot w s).lines = s.lines := rfl
@[simp] theorem setWorker_zones (slot : Nat) (w : Worker) (s : State) :
    (setWorker slot w s).zones = s.zones := rfl
@[simp] theorem setWorker_doors (slot : Nat) (w : Worker) (s : State) :
    (setWorker slot w s).doors = s.doors := rfl
@[simp] theorem setWorker_pay (slot : Nat) (w : Worker) (s : State) :
    (setWorker slot w s).pay = s.pay := rfl
@[simp] theorem setWorker_bells (slot : Nat) (w : Worker) (s : State) :
    (setWorker slot w s).bells = s.bells := rfl
@[simp] theorem setWorker_fire (slot : Nat) (w : Worker) (s : State) :
    (setWorker slot w s).fire = s.fire := rfl
@[simp] theorem setWorker_link (slot : Nat) (w : Worker) (s : State) :
    (setWorker slot w s).link = s.link := rfl
@[simp] theorem setWorker_regs (slot : Nat) (w : Worker) (s : State) :
    (setWorker slot w s).regs = s.regs := rfl
@[simp] theorem setWorker_ram (slot : Nat) (w : Worker) (s : State) :
    (setWorker slot w s).ram = s.ram := rfl
@[simp] theorem setWorker_linkAnswers (slot : Nat) (w : Worker) (s : State) :
    (setWorker slot w s).linkAnswers = s.linkAnswers := rfl
@[simp] theorem setWorker_pending (slot : Nat) (w : Worker) (s : State) :
    (setWorker slot w s).pending = s.pending := rfl

/-! ### `setStage` -/

@[simp] theorem setStage_link (g : Stage) (s : State) :
    (setStage g s).link = { s.link with request := s.link.request.map fun q => { q with stage := g } } := rfl
@[simp] theorem setStage_clock (g : Stage) (s : State) : (setStage g s).clock = s.clock := rfl
@[simp] theorem setStage_mode (g : Stage) (s : State) : (setStage g s).mode = s.mode := rfl
@[simp] theorem setStage_cal (g : Stage) (s : State) : (setStage g s).cal = s.cal := rfl
@[simp] theorem setStage_table (g : Stage) (s : State) : (setStage g s).table = s.table := rfl
@[simp] theorem setStage_lines (g : Stage) (s : State) : (setStage g s).lines = s.lines := rfl
@[simp] theorem setStage_zones (g : Stage) (s : State) : (setStage g s).zones = s.zones := rfl
@[simp] theorem setStage_doors (g : Stage) (s : State) : (setStage g s).doors = s.doors := rfl
@[simp] theorem setStage_pay (g : Stage) (s : State) : (setStage g s).pay = s.pay := rfl
@[simp] theorem setStage_bells (g : Stage) (s : State) : (setStage g s).bells = s.bells := rfl
@[simp] theorem setStage_fire (g : Stage) (s : State) : (setStage g s).fire = s.fire := rfl
@[simp] theorem setStage_regs (g : Stage) (s : State) : (setStage g s).regs = s.regs := rfl
@[simp] theorem setStage_ram (g : Stage) (s : State) : (setStage g s).ram = s.ram := rfl
@[simp] theorem setStage_linkAnswers (g : Stage) (s : State) :
    (setStage g s).linkAnswers = s.linkAnswers := rfl
@[simp] theorem setStage_pending (g : Stage) (s : State) : (setStage g s).pending = s.pending := rfl

/-! ### `setProgress` -/

@[simp] theorem setProgress_link (cursor written : Nat) (s : State) :
    (setProgress cursor written s).link = { s.link with request := s.link.request.map fun q => { q with cursor := cursor, written := written } } := rfl
@[simp] theorem setProgress_clock (cursor written : Nat) (s : State) :
    (setProgress cursor written s).clock = s.clock := rfl
@[simp] theorem setProgress_mode (cursor written : Nat) (s : State) :
    (setProgress cursor written s).mode = s.mode := rfl
@[simp] theorem setProgress_cal (cursor written : Nat) (s : State) :
    (setProgress cursor written s).cal = s.cal := rfl
@[simp] theorem setProgress_table (cursor written : Nat) (s : State) :
    (setProgress cursor written s).table = s.table := rfl
@[simp] theorem setProgress_lines (cursor written : Nat) (s : State) :
    (setProgress cursor written s).lines = s.lines := rfl
@[simp] theorem setProgress_zones (cursor written : Nat) (s : State) :
    (setProgress cursor written s).zones = s.zones := rfl
@[simp] theorem setProgress_doors (cursor written : Nat) (s : State) :
    (setProgress cursor written s).doors = s.doors := rfl
@[simp] theorem setProgress_pay (cursor written : Nat) (s : State) :
    (setProgress cursor written s).pay = s.pay := rfl
@[simp] theorem setProgress_bells (cursor written : Nat) (s : State) :
    (setProgress cursor written s).bells = s.bells := rfl
@[simp] theorem setProgress_fire (cursor written : Nat) (s : State) :
    (setProgress cursor written s).fire = s.fire := rfl
@[simp] theorem setProgress_regs (cursor written : Nat) (s : State) :
    (setProgress cursor written s).regs = s.regs := rfl
@[simp] theorem setProgress_ram (cursor written : Nat) (s : State) :
    (setProgress cursor written s).ram = s.ram := rfl
@[simp] theorem setProgress_linkAnswers (cursor written : Nat) (s : State) :
    (setProgress cursor written s).linkAnswers = s.linkAnswers := rfl
@[simp] theorem setProgress_pending (cursor written : Nat) (s : State) :
    (setProgress cursor written s).pending = s.pending := rfl

/-! ### `beginRequest` -/

@[simp] theorem beginRequest_link (r : Req) (notify : Bool) (s : State) :
    (beginRequest r notify s).link = { s.link with request := some ⟨r, notify, .taken, 0, 0⟩ } := rfl
@[simp] theorem beginRequest_clock (r : Req) (notify : Bool) (s : State) :
    (beginRequest r notify s).clock = s.clock := rfl
@[simp] theorem beginRequest_mode (r : Req) (notify : Bool) (s : State) :
    (beginRequest r notify s).mode = s.mode := rfl
@[simp] theorem beginRequest_cal (r : Req) (notify : Bool) (s : State) :
    (beginRequest r notify s).cal = s.cal := rfl
@[simp] theorem beginRequest_table (r : Req) (notify : Bool) (s : State) :
    (beginRequest r notify s).table = s.table := rfl
@[simp] theorem beginRequest_lines (r : Req) (notify : Bool) (s : State) :
    (beginRequest r notify s).lines = s.lines := rfl
@[simp] theorem beginRequest_zones (r : Req) (notify : Bool) (s : State) :
    (beginRequest r notify s).zones = s.zones := rfl
@[simp] theorem beginRequest_doors (r : Req) (notify : Bool) (s : State) :
    (beginRequest r notify s).doors = s.doors := rfl
@[simp] theorem beginRequest_pay (r : Req) (notify : Bool) (s : State) :
    (beginRequest r notify s).pay = s.pay := rfl
@[simp] theorem beginRequest_bells (r : Req) (notify : Bool) (s : State) :
    (beginRequest r notify s).bells = s.bells := rfl
@[simp] theorem beginRequest_fire (r : Req) (notify : Bool) (s : State) :
    (beginRequest r notify s).fire = s.fire := rfl
@[simp] theorem beginRequest_regs (r : Req) (notify : Bool) (s : State) :
    (beginRequest r notify s).regs = s.regs := rfl
@[simp] theorem beginRequest_ram (r : Req) (notify : Bool) (s : State) :
    (beginRequest r notify s).ram = s.ram := rfl
@[simp] theorem beginRequest_linkAnswers (r : Req) (notify : Bool) (s : State) :
    (beginRequest r notify s).linkAnswers = s.linkAnswers := rfl
@[simp] theorem beginRequest_pending (r : Req) (notify : Bool) (s : State) :
    (beginRequest r notify s).pending = s.pending := rfl

/-! ### `restartPoll` -/

@[simp] theorem restartPoll_link (s : State) :
    (restartPoll s).link = { s.link with pollTimer := s.link.setup.map (·.poll) } := rfl
@[simp] theorem restartPoll_clock (s : State) : (restartPoll s).clock = s.clock := rfl
@[simp] theorem restartPoll_mode (s : State) : (restartPoll s).mode = s.mode := rfl
@[simp] theorem restartPoll_cal (s : State) : (restartPoll s).cal = s.cal := rfl
@[simp] theorem restartPoll_table (s : State) : (restartPoll s).table = s.table := rfl
@[simp] theorem restartPoll_lines (s : State) : (restartPoll s).lines = s.lines := rfl
@[simp] theorem restartPoll_zones (s : State) : (restartPoll s).zones = s.zones := rfl
@[simp] theorem restartPoll_doors (s : State) : (restartPoll s).doors = s.doors := rfl
@[simp] theorem restartPoll_pay (s : State) : (restartPoll s).pay = s.pay := rfl
@[simp] theorem restartPoll_bells (s : State) : (restartPoll s).bells = s.bells := rfl
@[simp] theorem restartPoll_fire (s : State) : (restartPoll s).fire = s.fire := rfl
@[simp] theorem restartPoll_regs (s : State) : (restartPoll s).regs = s.regs := rfl
@[simp] theorem restartPoll_ram (s : State) : (restartPoll s).ram = s.ram := rfl
@[simp] theorem restartPoll_linkAnswers (s : State) : (restartPoll s).linkAnswers = s.linkAnswers := rfl
@[simp] theorem restartPoll_pending (s : State) : (restartPoll s).pending = s.pending := rfl

/-! ### `setRun` -/

@[simp] theorem setRun_regs (r : RunState) (s : State) :
    (setRun r s).regs = { s.regs with run := r } := rfl
@[simp] theorem setRun_clock (r : RunState) (s : State) : (setRun r s).clock = s.clock := rfl
@[simp] theorem setRun_mode (r : RunState) (s : State) : (setRun r s).mode = s.mode := rfl
@[simp] theorem setRun_cal (r : RunState) (s : State) : (setRun r s).cal = s.cal := rfl
@[simp] theorem setRun_table (r : RunState) (s : State) : (setRun r s).table = s.table := rfl
@[simp] theorem setRun_lines (r : RunState) (s : State) : (setRun r s).lines = s.lines := rfl
@[simp] theorem setRun_zones (r : RunState) (s : State) : (setRun r s).zones = s.zones := rfl
@[simp] theorem setRun_doors (r : RunState) (s : State) : (setRun r s).doors = s.doors := rfl
@[simp] theorem setRun_pay (r : RunState) (s : State) : (setRun r s).pay = s.pay := rfl
@[simp] theorem setRun_bells (r : RunState) (s : State) : (setRun r s).bells = s.bells := rfl
@[simp] theorem setRun_fire (r : RunState) (s : State) : (setRun r s).fire = s.fire := rfl
@[simp] theorem setRun_link (r : RunState) (s : State) : (setRun r s).link = s.link := rfl
@[simp] theorem setRun_ram (r : RunState) (s : State) : (setRun r s).ram = s.ram := rfl
@[simp] theorem setRun_linkAnswers (r : RunState) (s : State) :
    (setRun r s).linkAnswers = s.linkAnswers := rfl
@[simp] theorem setRun_pending (r : RunState) (s : State) : (setRun r s).pending = s.pending := rfl

/-! ### `hostWrites` -/

@[simp] theorem hostWrites_ram (s : State) (w : HostWrites) :
    (s.hostWrites w).ram = hostWrite s.ram w := rfl
@[simp] theorem hostWrites_clock (s : State) (w : HostWrites) : (s.hostWrites w).clock = s.clock := rfl
@[simp] theorem hostWrites_mode (s : State) (w : HostWrites) : (s.hostWrites w).mode = s.mode := rfl
@[simp] theorem hostWrites_cal (s : State) (w : HostWrites) : (s.hostWrites w).cal = s.cal := rfl
@[simp] theorem hostWrites_table (s : State) (w : HostWrites) : (s.hostWrites w).table = s.table := rfl
@[simp] theorem hostWrites_lines (s : State) (w : HostWrites) : (s.hostWrites w).lines = s.lines := rfl
@[simp] theorem hostWrites_zones (s : State) (w : HostWrites) : (s.hostWrites w).zones = s.zones := rfl
@[simp] theorem hostWrites_doors (s : State) (w : HostWrites) : (s.hostWrites w).doors = s.doors := rfl
@[simp] theorem hostWrites_pay (s : State) (w : HostWrites) : (s.hostWrites w).pay = s.pay := rfl
@[simp] theorem hostWrites_bells (s : State) (w : HostWrites) : (s.hostWrites w).bells = s.bells := rfl
@[simp] theorem hostWrites_fire (s : State) (w : HostWrites) : (s.hostWrites w).fire = s.fire := rfl
@[simp] theorem hostWrites_link (s : State) (w : HostWrites) : (s.hostWrites w).link = s.link := rfl
@[simp] theorem hostWrites_regs (s : State) (w : HostWrites) : (s.hostWrites w).regs = s.regs := rfl
@[simp] theorem hostWrites_linkAnswers (s : State) (w : HostWrites) :
    (s.hostWrites w).linkAnswers = s.linkAnswers := rfl
@[simp] theorem hostWrites_pending (s : State) (w : HostWrites) :
    (s.hostWrites w).pending = s.pending := rfl

/-! ### `markEdge` -/

@[simp] theorem markEdge_clock (quiet : Bool) (s : State) :
    (markEdge quiet s).clock = { s.clock with edge := some s.clock.now, markReady := s.clock.markReady || quiet } := rfl
@[simp] theorem markEdge_mode (quiet : Bool) (s : State) : (markEdge quiet s).mode = s.mode := rfl
@[simp] theorem markEdge_cal (quiet : Bool) (s : State) : (markEdge quiet s).cal = s.cal := rfl
@[simp] theorem markEdge_table (quiet : Bool) (s : State) : (markEdge quiet s).table = s.table := rfl
@[simp] theorem markEdge_lines (quiet : Bool) (s : State) : (markEdge quiet s).lines = s.lines := rfl
@[simp] theorem markEdge_zones (quiet : Bool) (s : State) : (markEdge quiet s).zones = s.zones := rfl
@[simp] theorem markEdge_doors (quiet : Bool) (s : State) : (markEdge quiet s).doors = s.doors := rfl
@[simp] theorem markEdge_pay (quiet : Bool) (s : State) : (markEdge quiet s).pay = s.pay := rfl
@[simp] theorem markEdge_bells (quiet : Bool) (s : State) : (markEdge quiet s).bells = s.bells := rfl
@[simp] theorem markEdge_fire (quiet : Bool) (s : State) : (markEdge quiet s).fire = s.fire := rfl
@[simp] theorem markEdge_link (quiet : Bool) (s : State) : (markEdge quiet s).link = s.link := rfl
@[simp] theorem markEdge_regs (quiet : Bool) (s : State) : (markEdge quiet s).regs = s.regs := rfl
@[simp] theorem markEdge_ram (quiet : Bool) (s : State) : (markEdge quiet s).ram = s.ram := rfl
@[simp] theorem markEdge_linkAnswers (quiet : Bool) (s : State) :
    (markEdge quiet s).linkAnswers = s.linkAnswers := rfl
@[simp] theorem markEdge_pending (quiet : Bool) (s : State) :
    (markEdge quiet s).pending = s.pending := rfl

/-! ### `midnight` -/

@[simp] theorem midnight_cal (day : Nat) (s : State) :
    (midnight day s).cal = { s.cal with exceptions := pruneExceptions day s.cal.exceptions } := rfl
@[simp] theorem midnight_clock (day : Nat) (s : State) : (midnight day s).clock = s.clock := rfl
@[simp] theorem midnight_mode (day : Nat) (s : State) : (midnight day s).mode = s.mode := rfl
@[simp] theorem midnight_table (day : Nat) (s : State) : (midnight day s).table = s.table := rfl
@[simp] theorem midnight_lines (day : Nat) (s : State) : (midnight day s).lines = s.lines := rfl
@[simp] theorem midnight_zones (day : Nat) (s : State) : (midnight day s).zones = s.zones := rfl
@[simp] theorem midnight_doors (day : Nat) (s : State) : (midnight day s).doors = s.doors := rfl
@[simp] theorem midnight_pay (day : Nat) (s : State) : (midnight day s).pay = s.pay := rfl
@[simp] theorem midnight_bells (day : Nat) (s : State) : (midnight day s).bells = s.bells := rfl
@[simp] theorem midnight_fire (day : Nat) (s : State) : (midnight day s).fire = s.fire := rfl
@[simp] theorem midnight_link (day : Nat) (s : State) : (midnight day s).link = s.link := rfl
@[simp] theorem midnight_regs (day : Nat) (s : State) : (midnight day s).regs = s.regs := rfl
@[simp] theorem midnight_ram (day : Nat) (s : State) : (midnight day s).ram = s.ram := rfl
@[simp] theorem midnight_linkAnswers (day : Nat) (s : State) :
    (midnight day s).linkAnswers = s.linkAnswers := rfl
@[simp] theorem midnight_pending (day : Nat) (s : State) : (midnight day s).pending = s.pending := rfl

/-! ### `fixCapacity` -/

@[simp] theorem fixCapacity_table (w : Nat) (s : State) :
    (fixCapacity w s).table = { s.table with capacity := some w } := rfl
@[simp] theorem fixCapacity_clock (w : Nat) (s : State) : (fixCapacity w s).clock = s.clock := rfl
@[simp] theorem fixCapacity_mode (w : Nat) (s : State) : (fixCapacity w s).mode = s.mode := rfl
@[simp] theorem fixCapacity_cal (w : Nat) (s : State) : (fixCapacity w s).cal = s.cal := rfl
@[simp] theorem fixCapacity_lines (w : Nat) (s : State) : (fixCapacity w s).lines = s.lines := rfl
@[simp] theorem fixCapacity_zones (w : Nat) (s : State) : (fixCapacity w s).zones = s.zones := rfl
@[simp] theorem fixCapacity_doors (w : Nat) (s : State) : (fixCapacity w s).doors = s.doors := rfl
@[simp] theorem fixCapacity_pay (w : Nat) (s : State) : (fixCapacity w s).pay = s.pay := rfl
@[simp] theorem fixCapacity_bells (w : Nat) (s : State) : (fixCapacity w s).bells = s.bells := rfl
@[simp] theorem fixCapacity_fire (w : Nat) (s : State) : (fixCapacity w s).fire = s.fire := rfl
@[simp] theorem fixCapacity_link (w : Nat) (s : State) : (fixCapacity w s).link = s.link := rfl
@[simp] theorem fixCapacity_regs (w : Nat) (s : State) : (fixCapacity w s).regs = s.regs := rfl
@[simp] theorem fixCapacity_ram (w : Nat) (s : State) : (fixCapacity w s).ram = s.ram := rfl
@[simp] theorem fixCapacity_linkAnswers (w : Nat) (s : State) :
    (fixCapacity w s).linkAnswers = s.linkAnswers := rfl
@[simp] theorem fixCapacity_pending (w : Nat) (s : State) : (fixCapacity w s).pending = s.pending := rfl

/-! ### `startLink` -/

@[simp] theorem startLink_link (s : State) :
    (startLink s).link = { s.link with workPos := 0, journalPos := 0, fill := 0, ret := none, contWritten := false } := rfl
@[simp] theorem startLink_clock (s : State) : (startLink s).clock = s.clock := rfl
@[simp] theorem startLink_mode (s : State) : (startLink s).mode = s.mode := rfl
@[simp] theorem startLink_cal (s : State) : (startLink s).cal = s.cal := rfl
@[simp] theorem startLink_table (s : State) : (startLink s).table = s.table := rfl
@[simp] theorem startLink_lines (s : State) : (startLink s).lines = s.lines := rfl
@[simp] theorem startLink_zones (s : State) : (startLink s).zones = s.zones := rfl
@[simp] theorem startLink_doors (s : State) : (startLink s).doors = s.doors := rfl
@[simp] theorem startLink_pay (s : State) : (startLink s).pay = s.pay := rfl
@[simp] theorem startLink_bells (s : State) : (startLink s).bells = s.bells := rfl
@[simp] theorem startLink_fire (s : State) : (startLink s).fire = s.fire := rfl
@[simp] theorem startLink_regs (s : State) : (startLink s).regs = s.regs := rfl
@[simp] theorem startLink_ram (s : State) : (startLink s).ram = s.ram := rfl
@[simp] theorem startLink_linkAnswers (s : State) : (startLink s).linkAnswers = s.linkAnswers := rfl
@[simp] theorem startLink_pending (s : State) : (startLink s).pending = s.pending := rfl

/-! ### `clearMuster` -/

@[simp] theorem clearMuster_table (s : State) :
    (clearMuster s).table = { s.table with workers := s.table.workers.map fun e => (e.1, { e.2 with muster := false }) } := rfl
@[simp] theorem clearMuster_clock (s : State) : (clearMuster s).clock = s.clock := rfl
@[simp] theorem clearMuster_mode (s : State) : (clearMuster s).mode = s.mode := rfl
@[simp] theorem clearMuster_cal (s : State) : (clearMuster s).cal = s.cal := rfl
@[simp] theorem clearMuster_lines (s : State) : (clearMuster s).lines = s.lines := rfl
@[simp] theorem clearMuster_zones (s : State) : (clearMuster s).zones = s.zones := rfl
@[simp] theorem clearMuster_doors (s : State) : (clearMuster s).doors = s.doors := rfl
@[simp] theorem clearMuster_pay (s : State) : (clearMuster s).pay = s.pay := rfl
@[simp] theorem clearMuster_bells (s : State) : (clearMuster s).bells = s.bells := rfl
@[simp] theorem clearMuster_fire (s : State) : (clearMuster s).fire = s.fire := rfl
@[simp] theorem clearMuster_link (s : State) : (clearMuster s).link = s.link := rfl
@[simp] theorem clearMuster_regs (s : State) : (clearMuster s).regs = s.regs := rfl
@[simp] theorem clearMuster_ram (s : State) : (clearMuster s).ram = s.ram := rfl
@[simp] theorem clearMuster_linkAnswers (s : State) : (clearMuster s).linkAnswers = s.linkAnswers := rfl
@[simp] theorem clearMuster_pending (s : State) : (clearMuster s).pending = s.pending := rfl

/-! ### `failAfter` -/

@[simp] theorem failAfter_linkAnswers (n : Nat) (s : State) :
    (failAfter n s).linkAnswers = List.replicate n false ++ true :: s.linkAnswers := rfl
@[simp] theorem failAfter_clock (n : Nat) (s : State) : (failAfter n s).clock = s.clock := rfl
@[simp] theorem failAfter_mode (n : Nat) (s : State) : (failAfter n s).mode = s.mode := rfl
@[simp] theorem failAfter_cal (n : Nat) (s : State) : (failAfter n s).cal = s.cal := rfl
@[simp] theorem failAfter_table (n : Nat) (s : State) : (failAfter n s).table = s.table := rfl
@[simp] theorem failAfter_lines (n : Nat) (s : State) : (failAfter n s).lines = s.lines := rfl
@[simp] theorem failAfter_zones (n : Nat) (s : State) : (failAfter n s).zones = s.zones := rfl
@[simp] theorem failAfter_doors (n : Nat) (s : State) : (failAfter n s).doors = s.doors := rfl
@[simp] theorem failAfter_pay (n : Nat) (s : State) : (failAfter n s).pay = s.pay := rfl
@[simp] theorem failAfter_bells (n : Nat) (s : State) : (failAfter n s).bells = s.bells := rfl
@[simp] theorem failAfter_fire (n : Nat) (s : State) : (failAfter n s).fire = s.fire := rfl
@[simp] theorem failAfter_link (n : Nat) (s : State) : (failAfter n s).link = s.link := rfl
@[simp] theorem failAfter_regs (n : Nat) (s : State) : (failAfter n s).regs = s.regs := rfl
@[simp] theorem failAfter_ram (n : Nat) (s : State) : (failAfter n s).ram = s.ram := rfl
@[simp] theorem failAfter_pending (n : Nat) (s : State) : (failAfter n s).pending = s.pending := rfl

/-! ### Reads through an update -/

@[simp] theorem modDoor_same (d : DoorNo) (f : Door → Door) (s : State) :
    (modDoor d f s).doors[d] = f s.doors[d] := by simp [modDoor]

theorem modDoor_other (d e : DoorNo) (h : d ≠ e) (f : Door → Door) (s : State) :
    (modDoor d f s).doors[e] = s.doors[e] := by
  have : d.val ≠ e.val := fun x => h (Fin.ext x)
  simp [modDoor, this]

@[simp] theorem modLine_same (l : LineNo) (f : Line → Line) (s : State) :
    (modLine l f s).lines[l] = f s.lines[l] := by simp [modLine]

theorem modLine_other (l k : LineNo) (h : l ≠ k) (f : Line → Line) (s : State) :
    (modLine l f s).lines[k] = s.lines[k] := by
  have : l.val ≠ k.val := fun x => h (Fin.ext x)
  simp [modLine, this]

@[simp] theorem modCircuit_same (c : CircuitNo) (f : Circuit → Circuit) (s : State) :
    (modCircuit c f s).bells.circuits[c] = f s.bells.circuits[c] := by simp [modCircuit]

theorem modCircuit_other (c k : CircuitNo) (h : c ≠ k) (f : Circuit → Circuit) (s : State) :
    (modCircuit c f s).bells.circuits[k] = s.bells.circuits[k] := by
  have : c.val ≠ k.val := fun x => h (Fin.ext x)
  simp [modCircuit, this]

end Sys2Proof.Machine
end

