-- ==== Sys2Proof/Laws/Link.lean ====
section
/-! SUPPORT. What the shared operations of the memory link can do, said once for each: they touch the
link controller, the event flags, the shared RAM and the link's answers, they keep the RAM canonical, and
the only change of run state they make is RUNNING to ISOLATED (R175). -/

namespace Sys2Proof.Machine

/-- `t` differs from `s` as a link operation may make it differ. -/
structure LinkOnly (s t : State) : Prop where
  clock : t.clock = s.clock
  mode : t.mode = s.mode
  cal : t.cal = s.cal
  table : t.table = s.table
  lines : t.lines = s.lines
  zones : t.zones = s.zones
  doors : t.doors = s.doors
  pay : t.pay = s.pay
  bells : t.bells = s.bells
  fire : t.fire = s.fire
  pending : t.pending = s.pending
  setup : t.link.setup = s.link.setup
  muster : t.link.muster = s.link.muster
  output : t.link.output = s.link.output
  request : t.link.request = s.link.request ∨ t.link.request = none
  configValid : t.regs.configValid = s.regs.configValid
  runMark : t.regs.runMark = s.regs.runMark
  setupAddr : t.regs.setupAddr = s.regs.setupAddr
  eventEn : t.regs.eventEn = s.regs.eventEn
  eventLine : t.regs.eventLine = s.regs.eventLine
  ram : Memory.wf s.ram = true → Memory.wf t.ram = true
  run : t.regs.run = s.regs.run ∨ (s.regs.run = .running ∧ t.regs.run = .isolated)

theorem LinkOnly.refl (s : State) : LinkOnly s s :=
  ⟨rfl, rfl, rfl, rfl, rfl, rfl, rfl, rfl, rfl, rfl, rfl, rfl, rfl, rfl, .inl rfl, rfl, rfl, rfl,
    rfl, rfl, id, .inl rfl⟩

theorem LinkOnly.trans {s t u : State} (h : LinkOnly s t) (k : LinkOnly t u) : LinkOnly s u where
  clock := k.clock.trans h.clock
  mode := k.mode.trans h.mode
  cal := k.cal.trans h.cal
  table := k.table.trans h.table
  lines := k.lines.trans h.lines
  zones := k.zones.trans h.zones
  doors := k.doors.trans h.doors
  pay := k.pay.trans h.pay
  bells := k.bells.trans h.bells
  fire := k.fire.trans h.fire
  pending := k.pending.trans h.pending
  setup := k.setup.trans h.setup
  muster := k.muster.trans h.muster
  output := k.output.trans h.output
  request := by
    rcases k.request with e | e
    · rw [e]; exact h.request
    · exact .inr e
  configValid := k.configValid.trans h.configValid
  runMark := k.runMark.trans h.runMark
  setupAddr := k.setupAddr.trans h.setupAddr
  eventEn := k.eventEn.trans h.eventEn
  eventLine := k.eventLine.trans h.eventLine
  ram := k.ram ∘ h.ram
  run := by
    rcases k.run with e | ⟨a, b⟩
    · rw [e]; exact h.run
    · rcases h.run with e | ⟨_, d⟩
      · exact .inr ⟨e ▸ a, b⟩
      · rw [d] at a; cases a

/-- The gates run after a link operation exactly when they ran before it. -/
theorem LinkOnly.gatesRun {s t : State} (h : LinkOnly s t) : gatesRun t = gatesRun s := by
  rcases h.run with e | ⟨a, b⟩
  · simp [Machine.gatesRun, e]
  · simp [Machine.gatesRun, a, b]

/-- Fire is active after a link operation exactly when it was before it. -/
theorem LinkOnly.fireActive {s t : State} (h : LinkOnly s t) : fireActive t = fireActive s := by
  simp [Machine.fireActive, h.fire]

/-- The same grants stand after a link operation. -/
theorem LinkOnly.grantCount {s t : State} (h : LinkOnly s t) : grantCount t = grantCount s := by
  simp [Machine.grantCount, h.doors]

/-- A link operation leaves Q as it was. -/
theorem LinkOnly.queueCap {s t : State} (h : LinkOnly s t) : queueCap t = queueCap s := by
  simp [Machine.queueCap, h.table]

/-- An update of the link fields that no law above names. -/
theorem linkOnly_of_link {s : State} (l : Link) (a : l.setup = s.link.setup)
    (b : l.muster = s.link.muster) (c : l.output = s.link.output)
    (d : l.request = s.link.request ∨ l.request = none) : LinkOnly s { s with link := l } :=
  ⟨rfl, rfl, rfl, rfl, rfl, rfl, rfl, rfl, rfl, rfl, rfl, a, b, c, d, rfl, rfl, rfl, rfl, rfl, id, .inl rfl⟩

/-! ### Events and accesses -/

theorem raise_linkOnly (e : Event) (s : State) : LinkOnly s (raise e s) := by
  unfold raise; split
  · exact .refl s
  · exact ⟨rfl, rfl, rfl, rfl, rfl, rfl, rfl, rfl, rfl, rfl, rfl, rfl, rfl, rfl, .inl rfl, rfl, rfl, rfl,
    rfl, rfl, id, .inl rfl⟩

/-- Raising an event changes no run state. -/
@[simp] theorem raise_run (e : Event) (s : State) : (raise e s).regs.run = s.regs.run := by
  unfold raise; split <;> rfl

@[simp] theorem raise_link (e : Event) (s : State) : (raise e s).link = s.link := by
  unfold raise; split <;> rfl

@[simp] theorem raise_ram (e : Event) (s : State) : (raise e s).ram = s.ram := by
  unfold raise; split <;> rfl

@[simp] theorem raise_linkAnswers (e : Event) (s : State) : (raise e s).linkAnswers = s.linkAnswers := by
  unfold raise; split <;> rfl

theorem linkFail_linkOnly (s : State) : LinkOnly s (linkFail s) := by
  unfold linkFail
  dsimp only
  split
  · next h =>
    refine (raise_linkOnly .linkError s).trans ?_
    exact ⟨rfl, rfl, rfl, rfl, rfl, rfl, rfl, rfl, rfl, rfl, rfl, rfl, rfl, rfl, .inl rfl, rfl, rfl, rfl,
    rfl, rfl, id, .inr ⟨h, rfl⟩⟩
  · exact raise_linkOnly .linkError s

/-- An error response moves RUNNING to ISOLATED and no other run state (R175). -/
theorem linkFail_run (s : State) :
    (linkFail s).regs.run = if s.regs.run = .running then .isolated else s.regs.run := by
  unfold linkFail; dsimp only; simp only [raise_run]; split <;> simp_all

@[simp] theorem linkFail_link (s : State) : (linkFail s).link = s.link := by
  unfold linkFail; dsimp only; split <;> simp

@[simp] theorem linkFail_ram (s : State) : (linkFail s).ram = s.ram := by
  unfold linkFail; dsimp only; split <;> simp

theorem linkAccess_linkOnly (s : State) : LinkOnly s (linkAccess s).2 := by
  unfold linkAccess; split
  · exact .refl s
  · exact ⟨rfl, rfl, rfl, rfl, rfl, rfl, rfl, rfl, rfl, rfl, rfl, rfl, rfl, rfl, .inl rfl, rfl, rfl, rfl,
    rfl, rfl, id, .inl rfl⟩
  · next rest _ =>
    exact (show LinkOnly s { s with linkAnswers := rest } from
      ⟨rfl, rfl, rfl, rfl, rfl, rfl, rfl, rfl, rfl, rfl, rfl, rfl, rfl, rfl, .inl rfl, rfl, rfl, rfl,
    rfl, rfl, id, .inl rfl⟩).trans (linkFail_linkOnly _)

/-- With no error response to come, an access is answered well and changes nothing. -/
@[simp] theorem linkAccess_nil {s : State} (h : s.linkAnswers = []) : linkAccess s = (true, s) := by
  unfold linkAccess; rw [h]

@[simp] theorem linkAccess_link (s : State) : (linkAccess s).2.link = s.link := by
  unfold linkAccess; split <;> simp

/-- The RAM that a write leaves. -/
theorem linkOnly_of_ram (s : State) (base : Word) (off : Nat) (b : List Byte) :
    LinkOnly s { s with ram := writeBytes s.ram base off b } :=
  ⟨rfl, rfl, rfl, rfl, rfl, rfl, rfl, rfl, rfl, rfl, rfl, rfl, rfl, rfl, .inl rfl, rfl, rfl, rfl,
    rfl, rfl, writeBytes_wf base b off, .inl rfl⟩

theorem linkWrite_linkOnly (base : Word) (off : Nat) (b : List Byte) (s : State) :
    LinkOnly s (linkWrite base off b s).2 := by
  have h := linkAccess_linkOnly s
  unfold linkWrite
  rcases e : linkAccess s with ⟨ok, s1⟩
  rw [e] at h
  cases ok
  · exact h
  · exact h.trans (linkOnly_of_ram s1 base off b)

/-- With no error response to come, a write stores its bytes and changes nothing else. -/
@[simp] theorem linkWrite_nil {s : State} (h : s.linkAnswers = []) (base : Word) (off : Nat)
    (b : List Byte) :
    linkWrite base off b s = (true, { s with ram := writeBytes s.ram base off b }) := by
  unfold linkWrite; rw [linkAccess_nil h]

/-- An event raised under a condition, or not, after an update of the link fields. -/
theorem linkOnly_raiseIf {s : State} (c : Prop) [Decidable c] (e : Event) (l : Link)
    (h1 : l.setup = s.link.setup) (h2 : l.muster = s.link.muster) (h3 : l.output = s.link.output)
    (h4 : l.request = s.link.request ∨ l.request = none) :
    LinkOnly s (if c then raise e { s with link := l } else { s with link := l }) := by
  split
  · exact LinkOnly.trans (linkOnly_of_link l h1 h2 h3 h4) (raise_linkOnly e _)
  · exact linkOnly_of_link l h1 h2 h3 h4

/-- An event raised under a condition leaves the link fields alone. -/
theorem raiseIf_link (c : Prop) [Decidable c] (e : Event) (t : State) :
    (if c then raise e t else t).link = t.link := by
  split
  · exact raise_link e t
  · rfl

/-! ### Returns -/

theorem settleReturn_linkOnly (s : State) : LinkOnly s (settleReturn s) := by
  unfold settleReturn
  split
  · next r su _ _ =>
    dsimp only
    have h1 := linkWrite_linkOnly su.workList (64 * s.link.workPos + 3) r.bytes.1 s
    rcases e1 : linkWrite su.workList (64 * s.link.workPos + 3) r.bytes.1 s with ⟨ok1, s1⟩
    rw [e1] at h1
    cases ok1
    · exact h1
    · have h2 := h1.trans (linkOnly_of_ram s1 su.workList (64 * s.link.workPos + 8) r.bytes.2)
      dsimp only at h2 ⊢
      have h3 := h2.trans (linkWrite_linkOnly su.workList (64 * s.link.workPos) [0xA5] _)
      rcases e3 : linkWrite su.workList (64 * s.link.workPos) [0xA5]
        { s1 with ram := writeBytes s1.ram su.workList (64 * s.link.workPos + 8) r.bytes.2 } with ⟨ok3, s3⟩
      rw [e3] at h3
      cases ok3
      · exact h3
      · dsimp only at h3 ⊢
        have h4 := h3.trans (linkOnly_of_link (s := s3)
          { s3.link with ret := none, workPos := nextWorkPos su s3.link.workPos } rfl rfl rfl (.inl rfl))
        split
        · exact h4.trans (raise_linkOnly .workDone _)
        · exact h4
  · exact .refl s

theorem pendReturn_linkOnly (st : Status) (count resume : Option Nat) (s : State) :
    LinkOnly s (pendReturn st count resume s) := by
  unfold pendReturn; split
  · exact .refl s
  · exact linkOnly_of_link _ rfl rfl rfl (.inr rfl)

theorem endRequest_linkOnly (st : Status) (count resume : Option Nat) (s : State) :
    LinkOnly s (endRequest st count resume s) := by
  have h := pendReturn_linkOnly st count resume s
  unfold endRequest; dsimp only; split
  · exact h.trans (settleReturn_linkOnly _)
  · exact h

/-! ### The journal and the holding queue -/

theorem testEntries_linkOnly (su : Setup) :
    ∀ (l : List Nat) (s : State), LinkOnly s (testEntries su l s).2
  | [], s => .refl s
  | k :: rest, s => by
    have h := linkAccess_linkOnly s
    unfold testEntries
    rcases e : linkAccess s with ⟨ok, s1⟩
    rw [e] at h
    cases ok
    · exact h
    · have h2 := h.trans (testEntries_linkOnly su rest s1)
      dsimp only
      rcases e2 : testEntries su rest s1 with ⟨w, s2⟩
      rw [e2] at h2
      cases w
      · dsimp only; split <;> exact h2
      · exact h2
      · exact h2

theorem writeEntries_linkOnly (su : Setup) (r : Record) :
    ∀ (l : List Nat) (s : State), LinkOnly s (writeEntries su r l s).2
  | [], s => .refl s
  | k :: rest, s => by
    unfold writeEntries
    dsimp only
    have h1 := linkWrite_linkOnly su.journal (journalOffset su s.link.journalPos k + 1) (r.entryBytes k) s
    rcases e1 : linkWrite su.journal (journalOffset su s.link.journalPos k + 1) (r.entryBytes k) s
      with ⟨ok1, s1⟩
    rw [e1] at h1
    cases ok1
    · exact h1
    · dsimp only
      have h2 := h1.trans (linkWrite_linkOnly su.journal (journalOffset su s.link.journalPos k) [0xF1] s1)
      rcases e2 : linkWrite su.journal (journalOffset su s.link.journalPos k) [0xF1] s1 with ⟨ok2, s2⟩
      rw [e2] at h2
      cases ok2
      · exact h2
      · dsimp only
        refine (h2.trans (linkOnly_of_link { s2.link with contWritten := true } rfl rfl rfl (.inl rfl))).trans ?_
        exact writeEntries_linkOnly su r rest _

theorem leaveQueue_linkOnly (su : Setup) (n : Nat) (s : State) : LinkOnly s (leaveQueue su n s) := by
  unfold leaveQueue
  exact linkOnly_raiseIf _ _ _ rfl rfl rfl (.inl rfl)

theorem tryWriteHead_linkOnly (s : State) : LinkOnly s (tryWriteHead s).2 := by
  unfold tryWriteHead
  split
  · next r _ su _ _ =>
    dsimp only
    generalize (if (r.body.entries == 2 && !s.link.contWritten) = true then [0, 1] else [0]) = l1
    generalize (if (r.body.entries == 2) = true then [1, 0] else [0]) = l2
    have h1 := testEntries_linkOnly su l1 s
    rcases e1 : testEntries su l1 s with ⟨w1, s1⟩
    rw [e1] at h1
    cases w1
    · dsimp only
      have h2 := h1.trans (writeEntries_linkOnly su r l2 s1)
      rcases e2 : writeEntries su r l2 s1 with ⟨w2, s2⟩
      rw [e2] at h2
      cases w2
      · exact h2.trans (leaveQueue_linkOnly su _ s2)
      · exact h2
      · exact h2
    · exact h1
    · exact h1
  · exact .refl s

theorem writeHeads_linkOnly : ∀ (n : Nat) (s : State), LinkOnly s (writeHeads n s)
  | 0, s => .refl s
  | n + 1, s => by
    unfold writeHeads
    split
    · exact .refl s
    · have h := tryWriteHead_linkOnly s
      rcases e : tryWriteHead s with ⟨w, s1⟩
      rw [e] at h
      cases w
      · exact h.trans (writeHeads_linkOnly n s1)
      · exact h
      · exact h

theorem placeRecord_linkOnly (reserved : Bool) (t : Stamp) (b : RecordBody) (s : State) :
    LinkOnly s (placeRecord reserved t b s) := by
  unfold placeRecord
  exact linkOnly_raiseIf _ _ _ rfl rfl rfl (.inl rfl)

/-- What placing a record does to U and V: U rises by one, and V falls by one for a reserved place. -/
theorem placeRecord_link (reserved : Bool) (t : Stamp) (b : RecordBody) (s : State) :
    (placeRecord reserved t b s).link = { s.link with
      queue := s.link.queue ++ [⟨s.link.seq, t, b, s.link.draws⟩]
      seq := (s.link.seq + 1) % 65536
      draws := s.link.draws + 1
      reserved := if reserved then s.link.reserved - 1 else s.link.reserved } := by
  unfold placeRecord
  exact raiseIf_link _ _ _

theorem placeGap_linkOnly (reserved : Bool) (s : State) : LinkOnly s (placeGap reserved s) := by
  unfold placeGap
  generalize (if reserved then 1 else 2) = n
  split
  · exact (linkOnly_of_link (s := s) { s.link with holdGap := 0, lost := 0 } rfl rfl rfl (.inl rfl)).trans
      (placeRecord_linkOnly false _ _ _)
  · exact .refl s

theorem beginWrites_linkOnly (s : State) : LinkOnly s (beginWrites s) := by
  unfold beginWrites
  split
  · have h := tryWriteHead_linkOnly s
    rcases e : tryWriteHead s with ⟨w, s1⟩
    rw [e] at h
    cases w
    · exact h.trans (writeHeads_linkOnly 1 s1)
    · exact h.trans (raise_linkOnly .holding s1)
    · exact h
  · exact raise_linkOnly .holding s

/-- Handing over a record touches the link alone (R170 to R174). -/
theorem handOver_linkOnly (reserved : Bool) (t : Stamp) (b : RecordBody) (s : State) :
    LinkOnly s (handOver reserved t b s) := by
  unfold handOver
  split
  · exact .refl s
  · split
    · exact linkOnly_of_link _ rfl rfl rfl (.inl rfl)
    · dsimp only
      have h := (placeGap_linkOnly reserved s).trans (placeRecord_linkOnly reserved t b _)
      split
      · exact h.trans (beginWrites_linkOnly _)
      · exact h

theorem report_linkOnly (b : RecordBody) (s : State) : LinkOnly s (report b s) :=
  handOver_linkOnly false s.clock.now b s

end Sys2Proof.Machine
end

