-- ==== Sys2Proof/Laws/Table.lean ====
section
/-! SUPPORT. The worker table's lists, said once: what a slot or a badge reads as after each update, and
that every update keeps slots and badges in ascending order (R27, R30). -/

namespace Sys2Proof.Machine

/-! ### Slots -/

/-- A slot just put reads as what was put. -/
@[simp] theorem lookupSlot_putSlot_same (slot : Nat) (w : Worker) :
    ∀ l : List (Nat × Worker), lookupSlot slot (putSlot slot w l) = some w
  | [] => by simp [putSlot, lookupSlot]
  | (k, v) :: rest => by
    unfold putSlot
    split
    · simp [lookupSlot]
    · split
      · simp [lookupSlot]
      · next h _ => simp [lookupSlot, h, lookupSlot_putSlot_same slot w rest]

/-- Every other slot reads as before. -/
theorem lookupSlot_putSlot_other {slot k : Nat} (h : k ≠ slot) (w : Worker) :
    ∀ l : List (Nat × Worker), lookupSlot k (putSlot slot w l) = lookupSlot k l
  | [] => by simp [putSlot, lookupSlot, h]
  | (j, v) :: rest => by
    unfold putSlot
    split
    · next e => subst e; simp [lookupSlot, h]
    · split
      · simp [lookupSlot, h]
      · simp [lookupSlot, lookupSlot_putSlot_other h w rest]

/-- A slot freed holds no worker. -/
@[simp] theorem lookupSlot_dropSlot_same (slot : Nat) :
    ∀ l : List (Nat × Worker), lookupSlot slot (dropSlot slot l) = none
  | [] => rfl
  | (k, v) :: rest => by
    have ih := lookupSlot_dropSlot_same slot rest
    by_cases h : k = slot
    · simpa [dropSlot, h] using ih
    · simpa [dropSlot, h, lookupSlot, Ne.symm h] using ih

/-- Every other slot keeps its worker. -/
theorem lookupSlot_dropSlot_other {slot k : Nat} (h : k ≠ slot) :
    ∀ l : List (Nat × Worker), lookupSlot k (dropSlot slot l) = lookupSlot k l
  | [] => rfl
  | (j, v) :: rest => by
    have ih := lookupSlot_dropSlot_other h rest
    by_cases e : j = slot
    · simpa [dropSlot, e, lookupSlot, h] using ih
    · simpa [dropSlot, e, lookupSlot] using congrArg (fun r => if k = j then some v else r) ih

/-- The worker that a slot reads as is listed there. -/
theorem mem_of_lookupSlot {slot : Nat} {w : Worker} :
    ∀ {l : List (Nat × Worker)}, lookupSlot slot l = some w → (slot, w) ∈ l
  | (k, v) :: rest, h => by
    unfold lookupSlot at h
    split at h
    · next e => cases h; subst e; exact List.mem_cons_self
    · exact List.mem_cons_of_mem _ (mem_of_lookupSlot h)

/-- In a list in slot order, the worker listed at a slot is what the slot reads as. -/
theorem lookupSlot_of_mem {slot : Nat} {w : Worker} :
    ∀ {l : List (Nat × Worker)}, l.Pairwise (fun a b => a.1 < b.1) → (slot, w) ∈ l →
      lookupSlot slot l = some w
  | (k, v) :: rest, hp, hm => by
    rw [List.pairwise_cons] at hp
    rcases List.mem_cons.1 hm with e | hr
    · cases e; simp [lookupSlot]
    · have hlt : k < slot := hp.1 _ hr
      unfold lookupSlot
      rw [if_neg (by omega)]
      exact lookupSlot_of_mem hp.2 hr

/-- What a list holds after a slot has been put. -/
theorem mem_putSlot {slot k : Nat} {w v : Worker} :
    ∀ {l : List (Nat × Worker)}, (k, v) ∈ putSlot slot w l → (k, v) = (slot, w) ∨ (k, v) ∈ l
  | [], h => by simpa [putSlot] using h
  | (j, u) :: rest, h => by
    unfold putSlot at h
    split at h
    · rcases List.mem_cons.1 h with e | hr
      · exact .inl e
      · exact .inr (List.mem_cons_of_mem _ hr)
    · split at h
      · rcases List.mem_cons.1 h with e | hr
        · exact .inl e
        · exact .inr hr
      · rcases List.mem_cons.1 h with e | hr
        · exact .inr (e ▸ List.mem_cons_self)
        · exact (mem_putSlot hr).imp id (List.mem_cons_of_mem _)

/-- Putting a slot keeps the slot order. -/
theorem putSlot_sorted (slot : Nat) (w : Worker) :
    ∀ {l : List (Nat × Worker)}, l.Pairwise (fun a b => a.1 < b.1) →
      (putSlot slot w l).Pairwise (fun a b => a.1 < b.1)
  | [], _ => by simp [putSlot]
  | (j, u) :: rest, h => by
    rw [List.pairwise_cons] at h
    unfold putSlot
    split
    · next e => subst e; exact List.pairwise_cons.2 ⟨h.1, h.2⟩
    · split
      · next hlt =>
        refine List.pairwise_cons.2 ⟨fun b hb => ?_, List.pairwise_cons.2 h⟩
        rcases List.mem_cons.1 hb with e | hr
        · subst e; exact hlt
        · exact lt_trans hlt (h.1 b hr)
      · next hne hge =>
        refine List.pairwise_cons.2 ⟨fun b hb => ?_, putSlot_sorted slot w h.2⟩
        rcases mem_putSlot (k := b.1) (v := b.2) hb with e | hr
        · have : b.1 = slot := congrArg Prod.fst e
          show j < b.1
          omega
        · exact h.1 b hr

/-- Freeing a slot keeps the slot order. -/
theorem dropSlot_sorted (slot : Nat) {l : List (Nat × Worker)}
    (h : l.Pairwise (fun a b => a.1 < b.1)) : (dropSlot slot l).Pairwise (fun a b => a.1 < b.1) :=
  h.filter _

/-! ### The badge index -/

/-- Inserting a pair adds that pair and keeps the others. -/
theorem mem_insertBadge {badge slot : Nat} {e : Nat × Nat} :
    ∀ {l : List (Nat × Nat)}, e ∈ insertBadge badge slot l ↔ e = (badge, slot) ∨ e ∈ l
  | [] => by simp [insertBadge]
  | (b, k) :: rest => by
    unfold insertBadge
    split
    · simp [List.mem_cons]
    · rw [List.mem_cons, mem_insertBadge (l := rest), List.mem_cons]
      tauto

/-- Inserting a badge that the index does not hold keeps the badge order. -/
theorem insertBadge_sorted (badge slot : Nat) :
    ∀ {l : List (Nat × Nat)}, l.Pairwise (fun a b => a.1 < b.1) → (∀ e ∈ l, e.1 ≠ badge) →
      (insertBadge badge slot l).Pairwise (fun a b => a.1 < b.1)
  | [], _, _ => by simp [insertBadge]
  | (b, k) :: rest, h, hn => by
    rw [List.pairwise_cons] at h
    have hb : b ≠ badge := hn (b, k) List.mem_cons_self
    unfold insertBadge
    split
    · next hlt =>
      refine List.pairwise_cons.2 ⟨fun x hx => ?_, List.pairwise_cons.2 h⟩
      rcases List.mem_cons.1 hx with e | hr
      · subst e; exact hlt
      · exact lt_trans hlt (h.1 x hr)
    · next hge =>
      refine List.pairwise_cons.2 ⟨fun x hx => ?_, insertBadge_sorted badge slot h.2
        fun e he => hn e (List.mem_cons_of_mem _ he)⟩
      rcases mem_insertBadge.1 hx with e | hr
      · subst e; show b < badge; omega
      · exact h.1 x hr

/-- Removing a badge keeps every pair of the others. -/
theorem mem_dropBadge {badge : Nat} {e : Nat × Nat} {l : List (Nat × Nat)} :
    e ∈ dropBadge badge l ↔ e ∈ l ∧ e.1 ≠ badge := by
  simp [dropBadge]

/-- Removing a badge keeps the badge order. -/
theorem dropBadge_sorted (badge : Nat) {l : List (Nat × Nat)}
    (h : l.Pairwise (fun a b => a.1 < b.1)) : (dropBadge badge l).Pairwise (fun a b => a.1 < b.1) :=
  h.filter _

/-- A badge reads as nothing exactly when the index holds no pair of it. -/
theorem lookupBadge_eq_none {badge : Nat} :
    ∀ {l : List (Nat × Nat)}, lookupBadge badge l = none ↔ ∀ e ∈ l, e.1 ≠ badge
  | [] => by simp [lookupBadge]
  | (b, k) :: rest => by
    unfold lookupBadge
    split
    · next e => simp [e]
    · next e => simp [lookupBadge_eq_none (l := rest), Ne.symm e]

/-- The slot that a badge reads as is listed with it. -/
theorem mem_of_lookupBadge {badge slot : Nat} :
    ∀ {l : List (Nat × Nat)}, lookupBadge badge l = some slot → (badge, slot) ∈ l
  | (b, k) :: rest, h => by
    unfold lookupBadge at h
    split at h
    · next e => cases h; subst e; exact List.mem_cons_self
    · exact List.mem_cons_of_mem _ (mem_of_lookupBadge h)

/-! ### Workers of a state -/

/-- The worker of a slot just written. -/
@[simp] theorem workerAt_setWorker_same (slot : Nat) (w : Worker) (s : State) :
    workerAt (setWorker slot w s) slot = some w := by
  simp [workerAt, setWorker, setWorkers]

/-- The worker of every other slot. -/
theorem workerAt_setWorker_other {slot k : Nat} (h : k ≠ slot) (w : Worker) (s : State) :
    workerAt (setWorker slot w s) k = workerAt s k := by
  simp [workerAt, setWorker, setWorkers, lookupSlot_putSlot_other h]

/-- The worker of a slot depends on the table alone. -/
theorem workerAt_congr {s t : State} (h : t.table = s.table) (slot : Nat) :
    workerAt t slot = workerAt s slot := by simp [workerAt, h]

/-! ### Zones -/

@[simp] theorem modZone_clock (z : ZoneNo) (f : Zone → Zone) (s : State) :
    (modZone z f s).clock = s.clock := by unfold modZone; split <;> rfl
@[simp] theorem modZone_mode (z : ZoneNo) (f : Zone → Zone) (s : State) :
    (modZone z f s).mode = s.mode := by unfold modZone; split <;> rfl
@[simp] theorem modZone_cal (z : ZoneNo) (f : Zone → Zone) (s : State) :
    (modZone z f s).cal = s.cal := by unfold modZone; split <;> rfl
@[simp] theorem modZone_table (z : ZoneNo) (f : Zone → Zone) (s : State) :
    (modZone z f s).table = s.table := by unfold modZone; split <;> rfl
@[simp] theorem modZone_lines (z : ZoneNo) (f : Zone → Zone) (s : State) :
    (modZone z f s).lines = s.lines := by unfold modZone; split <;> rfl
@[simp] theorem modZone_doors (z : ZoneNo) (f : Zone → Zone) (s : State) :
    (modZone z f s).doors = s.doors := by unfold modZone; split <;> rfl
@[simp] theorem modZone_pay (z : ZoneNo) (f : Zone → Zone) (s : State) :
    (modZone z f s).pay = s.pay := by unfold modZone; split <;> rfl
@[simp] theorem modZone_bells (z : ZoneNo) (f : Zone → Zone) (s : State) :
    (modZone z f s).bells = s.bells := by unfold modZone; split <;> rfl
@[simp] theorem modZone_fire (z : ZoneNo) (f : Zone → Zone) (s : State) :
    (modZone z f s).fire = s.fire := by unfold modZone; split <;> rfl
@[simp] theorem modZone_link (z : ZoneNo) (f : Zone → Zone) (s : State) :
    (modZone z f s).link = s.link := by unfold modZone; split <;> rfl
@[simp] theorem modZone_regs (z : ZoneNo) (f : Zone → Zone) (s : State) :
    (modZone z f s).regs = s.regs := by unfold modZone; split <;> rfl
@[simp] theorem modZone_ram (z : ZoneNo) (f : Zone → Zone) (s : State) :
    (modZone z f s).ram = s.ram := by unfold modZone; split <;> rfl
@[simp] theorem modZone_linkAnswers (z : ZoneNo) (f : Zone → Zone) (s : State) :
    (modZone z f s).linkAnswers = s.linkAnswers := by unfold modZone; split <;> rfl
@[simp] theorem modZone_pending (z : ZoneNo) (f : Zone → Zone) (s : State) :
    (modZone z f s).pending = s.pending := by unfold modZone; split <;> rfl

/-- What each zone is after an update of one zone; zone 0 has no entry (R66). -/
theorem modZone_zone (z : ZoneNo) (f : Zone → Zone) (s : State) (i : Fin 15) :
    (modZone z f s).zones[i] = if i.val + 1 = z.val then f s.zones[i] else s.zones[i] := by
  unfold modZone zoneIndex
  by_cases h : z.val = 0
  · have : i.val + 1 ≠ z.val := by omega
    simp [h]
  · by_cases e : i.val + 1 = z.val
    · have hi : z.val - 1 = i.val := by omega
      simp [h, e, hi]
    · have hi : ¬ (z.val - 1 = i.val) := by omega
      simp [h, e, hi]

end Sys2Proof.Machine
end

