-- ==== Sys2Proof/Laws/Closings.lean ====
section
/-! SUPPORT. The operations on an open interval and on a location, said once each in the words of the
statements: a closing without a punch (R112), a deadline acted on (R111, R113), a move (R67), and what
follows a grant's own record (R76, R116). -/

namespace Sys2Proof.Machine

/-- A slot written twice holds what was written last. -/
theorem putSlot_putSlot (slot : Nat) (a b : Worker) :
    ∀ l : List (Nat × Worker), putSlot slot a (putSlot slot b l) = putSlot slot a l
  | [] => by simp [putSlot]
  | (k, v) :: rest => by
    by_cases h1 : slot = k
    · simp [putSlot, h1]
    · by_cases h2 : slot < k
      · simp [putSlot, h1, h2]
      · simp [putSlot, h1, h2, putSlot_putSlot slot a b rest]

/-- A worker record written twice holds what was written last. -/
theorem setWorker_setWorker (slot : Nat) (a b : Worker) (s : State) :
    setWorker slot a (setWorker slot b s) = setWorker slot a s := by
  simp [setWorker, setWorkers, putSlot_putSlot]

/-- A closing without a punch of an ON worker (R112). -/
theorem autoClose_eq {slot : Nat} {s : State} {w : Worker} {i : OpenInterval} (cause : CloseCause)
    (hw : workerAt s slot = some w) (hi : w.interval = some i) :
    autoClose slot cause s = autoClosed slot cause w i s := by
  unfold autoClose
  rw [hw]
  dsimp only
  rw [hi]
  rfl

/-- A move of a worker (R67). -/
theorem moveWorker_eq {slot : Nat} {s : State} {w : Worker} (z : ZoneNo)
    (hw : workerAt s slot = some w) : moveWorker slot z s = movedTo slot w z s := by
  unfold moveWorker
  rw [hw]
  rfl

/-- An interval changed at an ON worker. -/
theorem modInterval_eq {slot : Nat} {s : State} {w : Worker} {i : OpenInterval}
    (f : OpenInterval → OpenInterval) (hw : workerAt s slot = some w) (hi : w.interval = some i) :
    modInterval slot f s = setWorker slot { w with interval := some (f i) } s := by
  unfold modInterval
  rw [hw]
  dsimp only
  rw [hi]

/-- A closing right after its interval was written. -/
theorem autoClosed_setWorker (slot : Nat) (cause : CloseCause) (w : Worker) (j : OpenInterval)
    (s : State) :
    autoClosed slot cause { w with interval := some j } j
        (setWorker slot { w with interval := some j } s) = autoClosed slot cause w j s :=
  congrArg (handOver false s.clock.now _) (setWorker_setWorker slot _ _ s)

/-- A deadline of an ON worker acted on while the gates run (R111, R113, R116). -/
theorem actOnDeadline_eq {slot : Nat} {s : State} {w : Worker} {i : OpenInterval}
    (hg : gatesRun s = true) (hw : workerAt s slot = some w) (hi : w.interval = some i) :
    actOnDeadline slot s = deadlineActed slot w i s := by
  have hs := workerAt_setWorker_same slot { w with interval := some { i with due := false } } s
  unfold actOnDeadline deadlineActed
  dsimp only
  rw [modInterval_eq _ hw hi]
  have e1 : gatesRun (setWorker slot { w with interval := some { i with due := false } } s) = true := hg
  have e2 : grantNames (setWorker slot { w with interval := some { i with due := false } } s) slot =
      grantNames s slot := rfl
  have e3 : hasRoom (setWorker slot { w with interval := some { i with due := false } } s) =
      hasRoom s := rfl
  rw [e1, e2, e3]
  cases grantNames s slot with
  | true => simp
  | false =>
    cases hasRoom s with
    | true =>
      simp only [Bool.not_true, Bool.or_self, Bool.false_eq_true, if_false, if_true]
      rw [autoClose_eq .deadline hs rfl]
      exact autoClosed_setWorker slot .deadline w { i with due := false } s
    | false =>
      simp only [Bool.not_true, Bool.or_self, Bool.false_eq_true, if_false, if_true]
      rw [modInterval_eq _ hs rfl, setWorker_setWorker]

/-- What follows a grant's own record while the gates run (R76, R116). -/
theorem afterGrant_eq {s : State} (slot : Nat) (hg : gatesRun s = true) :
    afterGrant slot s = grantEnded slot s := by
  unfold afterGrant grantEnded
  cases hw : workerAt s slot with
  | none => rfl
  | some w =>
    cases hi : w.interval with
    | none => simp [hi]
    | some i => simp [hi, hg, actOnDeadline_eq hg hw hi]

end Sys2Proof.Machine
end

