-- ==== Sys2Proof/Laws/Doors.lean ====
section
/-! SUPPORT. The operations of one door, said once each: what commanding the relay, entering a state and
starting or ending a window leave, and that a door so left obeys its relay law (R85, R86, R94). -/

namespace Sys2Proof.Machine

/-! ### Commanding the relay (R86) -/

@[simp] theorem drive_entry (r : Bool) (w : Relay) (e : Door) : (drive r w e).entry = e.entry := by
  unfold drive; dsimp only; split <;> split <;> rfl
@[simp] theorem drive_state (r : Bool) (w : Relay) (e : Door) : (drive r w e).state = e.state := by
  unfold drive; dsimp only; split <;> split <;> rfl
@[simp] theorem drive_grant (r : Bool) (w : Relay) (e : Door) : (drive r w e).grant = e.grant := by
  unfold drive; dsimp only; split <;> split <;> rfl
@[simp] theorem drive_release (r : Bool) (w : Relay) (e : Door) :
    (drive r w e).release = e.release := by unfold drive; dsimp only; split <;> split <;> rfl
@[simp] theorem drive_held (r : Bool) (w : Relay) (e : Door) : (drive r w e).held = e.held := by
  unfold drive; dsimp only; split <;> split <;> rfl
@[simp] theorem drive_mark (r : Bool) (w : Relay) (e : Door) : (drive r w e).mark = e.mark := by
  unfold drive; dsimp only; split <;> split <;> rfl
@[simp] theorem drive_faultTime (r : Bool) (w : Relay) (e : Door) :
    (drive r w e).faultTime = e.faultTime := by unfold drive; dsimp only; split <;> split <;> rfl
@[simp] theorem drive_circuit (r : Bool) (w : Relay) (e : Door) :
    (drive r w e).circuit = e.circuit := by unfold drive; dsimp only; split <;> split <;> rfl
@[simp] theorem drive_contact (r : Bool) (w : Relay) (e : Door) :
    (drive r w e).contact = e.contact := by unfold drive; dsimp only; split <;> split <;> rfl
@[simp] theorem drive_readback (r : Bool) (w : Relay) (e : Door) :
    (drive r w e).readback = e.readback := by unfold drive; dsimp only; split <;> split <;> rfl
@[simp] theorem drive_alarmStart (r : Bool) (w : Relay) (e : Door) :
    (drive r w e).alarmStart = e.alarmStart := by unfold drive; dsimp only; split <;> split <;> rfl
@[simp] theorem drive_found (r : Bool) (w : Relay) (e : Door) : (drive r w e).found = e.found := by
  unfold drive; dsimp only; split <;> split <;> rfl
@[simp] theorem drive_openStart (r : Bool) (w : Relay) (e : Door) :
    (drive r w e).openStart = e.openStart := by unfold drive; dsimp only; split <;> split <;> rfl

/-- The command that a relay carries after it has been commanded. -/
theorem drive_cmd (r : Bool) (w : Relay) (e : Door) :
    (drive r w e).cmd = if r = true ∧ e.state ≠ .egress then .locked else w := by
  unfold drive
  by_cases h : r = true ∧ e.state ≠ .egress
  · have hb : (r && e.state != .egress) = true := by simpa using h
    simp only [hb, if_true]
    split
    · next c => simpa [h] using c
    · simp
  · have hb : (r && e.state != .egress) = false := by
      cases r <;> simp_all
    simp only [hb, Bool.false_eq_true, if_false]
    split
    · next c => simpa [h] using c
    · simp

/-- A command that stands already changes nothing. -/
theorem drive_same (r : Bool) (w : Relay) (e : Door)
    (h : e.cmd = if r = true ∧ e.state ≠ .egress then .locked else w) : drive r w e = e := by
  have hc := (drive_cmd r w e).trans h.symm
  unfold drive at hc ⊢
  dsimp only at hc ⊢
  generalize (if (r && e.state != .egress) = true then Relay.locked else w) = c at hc ⊢
  split
  · rfl
  · next n =>
    rw [if_neg n] at hc
    exact absurd hc.symm n

/-- An unsupervised door keeps no settle check and no disagreement. -/
theorem drive_unsupervised (r : Bool) (w : Relay) (e : Door) (hs : e.entry.supervised = false)
    (h : e.settle = none ∧ e.disagree = 0) :
    (drive r w e).settle = none ∧ (drive r w e).disagree = 0 := by
  unfold drive
  dsimp only
  split <;> split <;> first | exact h | simp [hs]

/-- Commanding a relay, in the words of the statements. -/
theorem drive_eq_commanded (s : State) (w : Relay) (e : Door) :
    drive s.mode.rehearsal w e = commanded s w e := by
  unfold drive commanded
  simp [Config.settleBeats]

/-! ### Entering a state (R85) -/

@[simp] theorem enter_state (r : Bool) (st : DoorState) (e : Door) : (enter r st e).state = st := by
  simp [enter]
@[simp] theorem enter_entry (r : Bool) (st : DoorState) (e : Door) :
    (enter r st e).entry = e.entry := by simp [enter]
@[simp] theorem enter_grant (r : Bool) (st : DoorState) (e : Door) :
    (enter r st e).grant = e.grant := by simp [enter]
@[simp] theorem enter_mark (r : Bool) (st : DoorState) (e : Door) : (enter r st e).mark = e.mark := by
  simp [enter]
@[simp] theorem enter_faultTime (r : Bool) (st : DoorState) (e : Door) :
    (enter r st e).faultTime = e.faultTime := by simp [enter]
@[simp] theorem enter_contact (r : Bool) (st : DoorState) (e : Door) :
    (enter r st e).contact = e.contact := by simp [enter]
@[simp] theorem enter_circuit (r : Bool) (st : DoorState) (e : Door) :
    (enter r st e).circuit = e.circuit := by simp [enter]
@[simp] theorem enter_readback (r : Bool) (st : DoorState) (e : Door) :
    (enter r st e).readback = e.readback := by simp [enter]
@[simp] theorem enter_release (r : Bool) (st : DoorState) (e : Door) :
    (enter r st e).release = none := by simp [enter]
@[simp] theorem enter_held (r : Bool) (st : DoorState) (e : Door) : (enter r st e).held = none := by
  simp [enter]
@[simp] theorem enter_alarmStart (r : Bool) (st : DoorState) (e : Door) :
    (enter r st e).alarmStart = none := by simp [enter]
@[simp] theorem enter_openStart (r : Bool) (st : DoorState) (e : Door) :
    (enter r st e).openStart = none := by simp [enter]
@[simp] theorem enter_found (r : Bool) (st : DoorState) (e : Door) : (enter r st e).found = e.found := by
  simp [enter]

/-- Entering a state, in the words of the statements. -/
theorem enter_eq_entered (s : State) (st : DoorState) (e : Door) :
    enter s.mode.rehearsal st e = entered s st (relayOf st) e := by
  simp only [enter, entered, drive_eq_commanded]

/-- The relay command of a door that has entered a state. -/
theorem enter_cmd (r : Bool) (st : DoorState) (e : Door) :
    (enter r st e).cmd = if r = true ∧ st ≠ .egress then .locked else relayOf st := by
  simp [enter, drive_cmd]

/-- With no window running, the relay that a door wants is the one its state gives. -/
theorem wantedRelay_noRelease (e : Door) (h : e.release = none) : wantedRelay e = relayOf e.state := by
  simp [wantedRelay, h]

/-- A door that has entered a state commands the relay its law asks for. -/
theorem enter_lawful_cmd (r : Bool) (st : DoorState) (e : Door) :
    (enter r st e).cmd =
      if r = true ∧ (enter r st e).state ≠ .egress then .locked else wantedRelay (enter r st e) := by
  rw [wantedRelay_noRelease _ (enter_release r st e), enter_cmd, enter_state]

/-! ### Releases and windows -/

/-- A release leaves the door RELEASED with its timer running (R88). -/
theorem releaseFor_spec (r : Bool) (seconds : Nat) (e : Door) :
    (releaseFor r seconds e).state = .released ∧
      (releaseFor r seconds e).release = some (seconds * 16) ∧
      (releaseFor r seconds e).grant = e.grant ∧ (releaseFor r seconds e).entry = e.entry ∧
      (releaseFor r seconds e).contact = e.contact ∧ (releaseFor r seconds e).mark = e.mark ∧
      (releaseFor r seconds e).cmd = if r = true then Relay.locked else Relay.released := by
  simp [releaseFor, enter_cmd, relayOf]

/-- An opening leaves the door OPEN with its held timer at the limit (R90). -/
theorem enterOpen_spec (r : Bool) (now : Stamp) (e : Door) :
    (enterOpen r now e).state = .open_ ∧
      (enterOpen r now e).held = some (e.entry.heldLimit * 16) ∧
      (enterOpen r now e).openStart = some now ∧ (enterOpen r now e).grant = e.grant ∧
      (enterOpen r now e).entry = e.entry ∧ (enterOpen r now e).contact = e.contact ∧
      (enterOpen r now e).mark = e.mark ∧ (enterOpen r now e).release = none ∧
      (enterOpen r now e).cmd = .locked := by
  simp [enterOpen, enter_cmd, relayOf]

/-! ### Findings (R98) -/

/-- A finding of a kind stands at a door exactly when it is the one the door keeps. -/
theorem Door.stands_eq_some (e : Door) (k : FaultKind) (f : RelayFinding) :
    e.stands k = some f ↔ e.found = some f ∧ f.kind = k := by
  unfold Door.stands
  cases e.found with
  | none => simp
  | some g =>
    by_cases h : g.kind = k
    · simp only [h, if_true, Option.some.injEq]
      constructor
      · rintro rfl
        exact ⟨rfl, h⟩
      · exact fun x => x.1
    · simp only [h, if_false, Option.some.injEq, reduceCtorEq, false_iff]
      rintro ⟨rfl, x⟩
      exact h x

/-- A finding that a beat end makes is a mismatch at a door without a mark or a finding, and carries what
was compared. -/
theorem Door.finds_spec (rb : Relay) (e : Door) (f : RelayFinding) (h : e.finds rb = some f) :
    e.mark = false ∧ e.found = none ∧ rb ≠ e.cmd ∧ f.cmd = e.cmd ∧ f.readback = rb ∧
      ((f.kind = .settle ∧ e.settle = some 1) ∨
        (f.kind = .drift ∧ e.entry.supervised = true ∧ e.settle = none ∧ 3 ≤ e.disagree)) := by
  unfold Door.finds at h
  split at h
  · cases h
  · next n =>
    simp only [not_or, Bool.not_eq_true, Option.isSome_eq_false_iff, Option.isNone_iff_eq_none] at n
    split at h
    · next c =>
      cases h
      exact ⟨n.1, n.2.1, n.2.2, rfl, rfl, .inl ⟨rfl, c⟩⟩
    · split at h
      · next c =>
        cases h
        exact ⟨n.1, n.2.1, n.2.2, rfl, rfl, .inr ⟨rfl, c⟩⟩
      · cases h

/-- A beat end keeps a finding that stands. -/
theorem Door.beat_keeps_found (b : Bool) (e : Door) (f : RelayFinding) (h : e.found = some f) :
    (e.beat b).found = some f := by
  simp [Door.beat, h]

/-! ### The CLEAR_FAULT check (R100) -/

/-- A link operation begins no check. -/
theorem LinkOnly.checksDoor {s t : State} (h : LinkOnly s t) (d : DoorNo)
    (hc : checksDoor t d = true) : checksDoor s d = true := by
  rcases h.request with e | e
  · simpa [Machine.checksDoor, e] using hc
  · simp [Machine.checksDoor, e] at hc

/-- A link operation keeps it that checks run at marked doors only. -/
theorem LinkOnly.checksMarked {s t : State} (h : LinkOnly s t) (hc : ChecksMarked s) :
    ChecksMarked t := fun d hd => by
  rw [h.doors]
  exact hc d (h.checksDoor d hd)

/-! ### Recompute (R87) -/

/-- Recompute changes one door only. -/
theorem recompute_other (d k : DoorNo) (h : d ≠ k) (s : State) :
    (recompute d s).doors[k] = s.doors[k] := by
  unfold recompute
  dsimp only
  split
  · rfl
  · exact modDoor_other d k h _ s

/-- Recompute leaves the door in the state it sets. -/
theorem recompute_state (d : DoorNo) (s : State) :
    (recompute d s).doors[d].state = recomputedState s s.doors[d] := by
  unfold recompute
  dsimp only
  split
  · next h => exact h.2.trans h.1.symm
  · rw [modDoor_same]
    split
    · next h => rw [h]; exact (enterOpen_spec _ _ _).1
    · simp

end Sys2Proof.Machine
end

