-- ==== Sys2Proof/Laws/Halt.lean ====
section
/-! SUPPORT. What HALT does to the bell scheduler, to a muster write in progress and to the deadlines, said
once for each (R114, R147, R159). -/

namespace Sys2Proof.Machine

theorem haltBells_spec (s : State) :
    haltBells s = { s with bells := { s.bells with
      due := [], circuits := s.bells.circuits.map Circuit.silence } } := rfl

theorem haltBells_circuit (c : CircuitNo) (s : State) :
    (haltBells s).bells.circuits[c] = Circuit.silence s.bells.circuits[c] := by
  simp [haltBells_spec]

theorem silence_idle_of_not_evac (k : Circuit) (h : k.isEvac = false) : Circuit.silence k = .idle := by
  cases k <;> simp_all [Circuit.silence, Circuit.isEvac]

/-- Writing muster entries touches the link alone. -/
theorem writeMuster_linkOnly (area : Word) :
    ∀ (l : List MusterEntry) (i : Nat) (s : State), LinkOnly s (writeMuster area i l s).2.2
  | [], _, s => .refl s
  | e :: rest, i, s => by
    have h := linkWrite_linkOnly area (16 + 8 * i) e.bytes s
    unfold writeMuster
    rcases eq : linkWrite area (16 + 8 * i) e.bytes s with ⟨ok, s1⟩
    rw [eq] at h
    cases ok
    · exact h
    · exact h.trans (writeMuster_linkOnly area rest (i + 1) s1)

/-- Cutting a muster write short touches the link alone: the muster write itself, the fire unit, the
doors and the tables stand for the HALT that follows. -/
theorem musterCut_linkOnly (s : State) : LinkOnly s (musterCut s) := by
  unfold musterCut
  split
  · split
    · exact (linkOnly_of_link (s := s) { s.link with draws := s.link.draws + 1 } rfl rfl rfl (.inl rfl)).trans
        (writeMuster_linkOnly _ _ _ _)
    · exact .refl s
  · exact .refl s

/-! ### Deadlines -/

theorem mapIntervals_table (f : OpenInterval → OpenInterval) (s : State) :
    (mapIntervals f s).table = { s.table with workers := s.table.workers.map fun e =>
      (e.1, { e.2 with interval := e.2.interval.map f }) } := rfl

/-- HALT and the entry to RUNNING leave no deadline marked by counting. -/
theorem dropDue_no_due (s : State) : slotsByDeadline (·.due) (dropDue s) = [] := by
  unfold slotsByDeadline
  rw [List.filterMap_eq_nil_iff.mpr]
  · rfl
  intro e he
  simp only [dropDue, mapIntervals_table, List.mem_map] at he
  obtain ⟨x, -, rfl⟩ := he
  cases x.2.interval <;> rfl

/-- Counting marks no deadline while the gates do not run. -/
theorem markDeadlines_at_rest (sec : Nat) (s : State) (h : gatesRun s = false) :
    markDeadlines sec s = s := by
  simp [markDeadlines, mapIntervals, setWorkers, h]

end Sys2Proof.Machine
end

