-- ==== Sys2Proof/Laws/PerInstr.lean ====
section
/-! SUPPORT. Laws of every command as syntax, one lemma for each constructor: a command that stands for a
request is well formed exactly when the request's parameters fit the work slot's fields, whatever its
NOTIFY flag (R178). -/

namespace Sys2Proof.Laws

/-- A command that stands for a request is well formed exactly when the request is. -/
def WellFormedRequest.Statement (i : Instr) : Prop :=
  ∀ (r : Req) (notify : Bool), i.request = some (r, notify) → i.wellFormed = r.wellFormed

/-- A command that stands for a request obeys the law by its definition. -/
theorem WellFormedRequest.of_some {i : Instr} {r : Req} {n : Bool} (h : i.request = some (r, n)) :
    WellFormedRequest.Statement i := by
  intro r' n' h'
  rw [h] at h'
  cases h'
  unfold Instr.wellFormed
  rw [h]

/-- A command that is no request obeys the law, having none. -/
theorem WellFormedRequest.of_none {i : Instr} (h : i.request = none) : WellFormedRequest.Statement i := by
  intro r n h'
  rw [h] at h'
  cases h'

theorem WellFormedRequest.hardReset (circuits : DoorPins) (fire : Bool) :
    WellFormedRequest.Statement (.hardReset circuits fire) := WellFormedRequest.of_none rfl

theorem WellFormedRequest.clearDone :
    WellFormedRequest.Statement .clearDone := WellFormedRequest.of_none rfl

theorem WellFormedRequest.beatEnd (readbacks : DoorPins) :
    WellFormedRequest.Statement (.beatEnd readbacks) := WellFormedRequest.of_none rfl

theorem WellFormedRequest.slewEnd :
    WellFormedRequest.Statement .slewEnd := WellFormedRequest.of_none rfl

theorem WellFormedRequest.syncMark :
    WellFormedRequest.Statement .syncMark := WellFormedRequest.of_none rfl

theorem WellFormedRequest.holdoverExpiry :
    WellFormedRequest.Statement .holdoverExpiry := WellFormedRequest.of_none rfl

theorem WellFormedRequest.halt (rosterBegun : Bool) :
    WellFormedRequest.Statement (.halt rosterBegun) := WellFormedRequest.of_none rfl

theorem WellFormedRequest.load (withRun : Bool) (host : HostWrites) :
    WellFormedRequest.Statement (.load withRun host) := WellFormedRequest.of_none rfl

theorem WellFormedRequest.loadComplete (host : HostWrites) :
    WellFormedRequest.Statement (.loadComplete host) := WellFormedRequest.of_none rfl

theorem WellFormedRequest.run (host : HostWrites) :
    WellFormedRequest.Statement (.run host) := WellFormedRequest.of_none rfl

theorem WellFormedRequest.nudge (host : HostWrites) :
    WellFormedRequest.Statement (.nudge host) := WellFormedRequest.of_none rfl

theorem WellFormedRequest.ackfire :
    WellFormedRequest.Statement .ackfire := WellFormedRequest.of_none rfl

theorem WellFormedRequest.eventsClear (value : Word) :
    WellFormedRequest.Statement (.eventsClear value) := WellFormedRequest.of_none rfl

theorem WellFormedRequest.registerWrite (offset width : Nat) (value : Word) :
    WellFormedRequest.Statement (.registerWrite offset width value) := WellFormedRequest.of_none rfl

theorem WellFormedRequest.poll (host : HostWrites) :
    WellFormedRequest.Statement (.poll host) := WellFormedRequest.of_none rfl

theorem WellFormedRequest.enrol (notify : Bool) (p : EnrolParams) :
    WellFormedRequest.Statement (.enrol notify p) := WellFormedRequest.of_some rfl

theorem WellFormedRequest.amend (notify : Bool) (p : AmendParams) :
    WellFormedRequest.Statement (.amend notify p) := WellFormedRequest.of_some rfl

theorem WellFormedRequest.withdraw (notify : Bool) (slot : Nat) (force : Bool) (out : OutArea) :
    WellFormedRequest.Statement (.withdraw notify slot force out) := WellFormedRequest.of_some rfl

theorem WellFormedRequest.withdrawDeferredResume :
    WellFormedRequest.Statement .withdrawDeferredResume := WellFormedRequest.of_none rfl

theorem WellFormedRequest.relocate (notify : Bool) (slot zone : Nat) :
    WellFormedRequest.Statement (.relocate notify slot zone) := WellFormedRequest.of_some rfl

theorem WellFormedRequest.forgive (notify : Bool) :
    WellFormedRequest.Statement (.forgive notify) := WellFormedRequest.of_some rfl

theorem WellFormedRequest.statement (notify : Bool) (first last : Nat) (reset : Bool) (out : OutArea) :
    WellFormedRequest.Statement (.statement notify first last reset out) := WellFormedRequest.of_some rfl

theorem WellFormedRequest.statementCopy :
    WellFormedRequest.Statement .statementCopy := WellFormedRequest.of_none rfl

theorem WellFormedRequest.readStatus (notify : Bool) (out : OutArea) :
    WellFormedRequest.Statement (.readStatus notify out) := WellFormedRequest.of_some rfl

theorem WellFormedRequest.outputWriteDone :
    WellFormedRequest.Statement .outputWriteDone := WellFormedRequest.of_none rfl

theorem WellFormedRequest.setTime (notify : Bool) (sec : Nat) :
    WellFormedRequest.Statement (.setTime notify sec) := WellFormedRequest.of_some rfl

theorem WellFormedRequest.calSet (notify : Bool) (day type : Nat) :
    WellFormedRequest.Statement (.calSet notify day type) := WellFormedRequest.of_some rfl

theorem WellFormedRequest.calClear (notify : Bool) (day : Nat) :
    WellFormedRequest.Statement (.calClear notify day) := WellFormedRequest.of_some rfl

theorem WellFormedRequest.zoneSet (notify : Bool) (zone : Nat) (present : Bool) (ceiling capacity : Nat) :
    WellFormedRequest.Statement (.zoneSet notify zone present ceiling capacity) := WellFormedRequest.of_some rfl

theorem WellFormedRequest.doorMode (notify : Bool) (door mode : Nat) :
    WellFormedRequest.Statement (.doorMode notify door mode) := WellFormedRequest.of_some rfl

theorem WellFormedRequest.doorPulse (notify : Bool) (door duration : Nat) :
    WellFormedRequest.Statement (.doorPulse notify door duration) := WellFormedRequest.of_some rfl

theorem WellFormedRequest.clearFault (notify : Bool) (door : Nat) :
    WellFormedRequest.Statement (.clearFault notify door) := WellFormedRequest.of_some rfl

theorem WellFormedRequest.ring (notify : Bool) (mask : BitVec 8) (pattern duration : Nat) :
    WellFormedRequest.Statement (.ring notify mask pattern duration) := WellFormedRequest.of_some rfl

theorem WellFormedRequest.inject (notify : Bool) (p : InjectParams) :
    WellFormedRequest.Statement (.inject notify p) := WellFormedRequest.of_some rfl

theorem WellFormedRequest.linkError (at_ : LinkFault) :
    WellFormedRequest.Statement (.linkError at_) := WellFormedRequest.of_none rfl

theorem WellFormedRequest.frameEnd (line : LineNo) (bytes : List Byte) (framing : Bool) (lastByte : Stamp) :
    WellFormedRequest.Statement (.frameEnd line bytes framing lastByte) := WellFormedRequest.of_none rfl

theorem WellFormedRequest.readerOffline (line : LineNo) :
    WellFormedRequest.Statement (.readerOffline line) := WellFormedRequest.of_none rfl

theorem WellFormedRequest.presentation (line : LineNo) (p : Presentation) :
    WellFormedRequest.Statement (.presentation line p) := WellFormedRequest.of_none rfl

theorem WellFormedRequest.contactChange (door : DoorNo) (closed : Bool) :
    WellFormedRequest.Statement (.contactChange door closed) := WellFormedRequest.of_none rfl

theorem WellFormedRequest.rexPress (door : DoorNo) :
    WellFormedRequest.Statement (.rexPress door) := WellFormedRequest.of_none rfl

theorem WellFormedRequest.releaseExpiry (door : DoorNo) :
    WellFormedRequest.Statement (.releaseExpiry door) := WellFormedRequest.of_none rfl

theorem WellFormedRequest.heldExpiry (door : DoorNo) :
    WellFormedRequest.Statement (.heldExpiry door) := WellFormedRequest.of_none rfl

theorem WellFormedRequest.settleCheck (door : DoorNo) :
    WellFormedRequest.Statement (.settleCheck door) := WellFormedRequest.of_none rfl

theorem WellFormedRequest.driftFinding (door : DoorNo) :
    WellFormedRequest.Statement (.driftFinding door) := WellFormedRequest.of_none rfl

theorem WellFormedRequest.deadlineReached :
    WellFormedRequest.Statement .deadlineReached := WellFormedRequest.of_none rfl

theorem WellFormedRequest.waitingClosingServed :
    WellFormedRequest.Statement .waitingClosingServed := WellFormedRequest.of_none rfl

theorem WellFormedRequest.bellEntryReached :
    WellFormedRequest.Statement .bellEntryReached := WellFormedRequest.of_none rfl

theorem WellFormedRequest.soundingEnd (circuit : CircuitNo) :
    WellFormedRequest.Statement (.soundingEnd circuit) := WellFormedRequest.of_none rfl

theorem WellFormedRequest.fireOn :
    WellFormedRequest.Statement .fireOn := WellFormedRequest.of_none rfl

theorem WellFormedRequest.fireOff :
    WellFormedRequest.Statement .fireOff := WellFormedRequest.of_none rfl

theorem WellFormedRequest.musterWriteStart :
    WellFormedRequest.Statement .musterWriteStart := WellFormedRequest.of_none rfl

theorem WellFormedRequest.musterWriteDone :
    WellFormedRequest.Statement .musterWriteDone := WellFormedRequest.of_none rfl

theorem WellFormedRequest.syncMarkLeadingEdge (quiet : Bool) :
    WellFormedRequest.Statement (.syncMarkLeadingEdge quiet) := WellFormedRequest.of_none rfl

end Sys2Proof.Laws
end

