-- ==== Sys2Proof/Laws/Records.lean ====
section
/-! SUPPORT. The bytes of a journal record (R178, 10.5), said once for every kind, and what a bell circuit
holds after a number of beats (R143, R148). -/

namespace Sys2Proof.Machine

/-! ### Journal records -/

theorem passageBytes_eq (p : PassageInfo) : passageBytes p = passageFields p := by
  unfold passageBytes passageFields stampBytes
  cases p.door <;> simp [doorByte]

theorem closingBytes_eq (c : ClosingResult) : closingBytes c = closingFields c := rfl

theorem passageFields_length (p : PassageInfo) : (passageFields p).length = 14 := by
  simp [passageFields, le32]

theorem closingFields_length (c : ClosingResult) : (closingFields c).length = 18 := by
  simp [closingFields, le32, le16]

/-- The bytes of a record follow from its kind, flags, slot and payload. -/
theorem Record.spelledAs_of_body {r : Record} {kind flags slot : Nat} {payload : List Byte}
    (hk : r.body.kind = kind) (hf : packFlags r.body.flags = flags)
    (hs : r.body.slot.getD 0xFFFF = slot) (hp : r.body.payload r.draw = payload)
    (hl : payload.length ≤ 48) : r.spelledAs kind flags slot payload := by
  subst hk hf hs hp
  have zeros : ∀ n : Nat, n ≤ 48 → (List.replicate 48 (0 : Byte)).take n = List.replicate n 0 := by
    intro n hn
    rw [List.take_replicate, Nat.min_eq_left hn]
  constructor
  · simp only [Record.firstEntry, padTo, stampBytes, List.append_assoc, List.take_append]
    rw [zeros _ (by omega)]
    simp [le16, le32]
    omega
  · simp only [Record.contEntry, padTo, List.append_assoc, List.drop_append, List.take_append,
      List.drop_replicate, List.take_replicate]
    rw [List.take_of_length_le (by simp; omega)]
    simp [le16]
    omega

/-! ### Bell circuits -/

theorem Circuit.beat_iterate_sounding (p : Pattern) (total e : Nat) :
    Circuit.beat^[e] (.sounding p total total) = .sounding p total (total - e) := by
  induction e with
  | zero => rfl
  | succ e ih => rw [Function.iterate_succ_apply', ih]; rfl

theorem Circuit.beat_iterate_evacuate (e : Nat) :
    Circuit.beat^[e] (.evacuate 0) = .evacuate (e % 64) := by
  induction e with
  | zero => rfl
  | succ e ih => rw [Function.iterate_succ_apply', ih]; simp [Circuit.beat]

end Sys2Proof.Machine
end

