-- ==== Sys2Proof/Laws/Requests.lean ====
section
/-! SUPPORT. A request's life on a part that is ready for it: the take hands it to its block at once
(R166), and its end returns the slot at once (R167). -/

namespace Sys2Proof.Machine

/-- On a ready part a request may be taken. -/
theorem ReadyFor.mayTake {s : State} {su : Setup} (h : ReadyFor s su) (r : Req) (notify : Bool) :
    mayTake r notify s = true := by
  simp [Machine.mayTake, h.running, h.request, h.ret, h.muster]

/-- On a ready part a request is handed to its block at once (R166). -/
theorem carryOut_ready {s : State} {su : Setup} (h : ReadyFor s su) (r : Req) (notify : Bool)
    (f : State → State) : carryOut r notify f s = f (beginRequest r notify s) := by
  simp [carryOut, h.mayTake r notify]

/-- A request taken from the work list, and not yet acted on, is handed to its block in RUNNING. -/
theorem carryOut_taken {s : State} (hr : s.regs.run = .running) (r : Req) (notify : Bool) (c w : Nat)
    (hq : s.link.request = some ⟨r, notify, .taken, c, w⟩) (f : State → State) :
    carryOut r notify f s = f (beginRequest r notify s) := by
  simp [carryOut, Machine.mayTake, hr, hq]

/-- A command of another request, or one that the part cannot take, changes nothing. -/
theorem carryOut_refused {s : State} {r : Req} {notify : Bool} (h : mayTake r notify s = false)
    (f : State → State) : carryOut r notify f s = s := by
  simp [carryOut, h]

/-- The end of the request in progress, in RUNNING with no error response to come, returns its slot
(R167). -/
theorem endRequest_returns {s : State} {su : Setup} {q : Request} (hr : s.regs.run = .running)
    (ha : s.linkAnswers = []) (hs : s.link.setup = some su) (hq : s.link.request = some q) (st : Status)
    (count resume : Option Nat) :
    endRequest st count resume s = answered su q.notify st count resume s := by
  obtain ⟨clock, mode, cal, table, lines, zones, doors, pay, bells, fire, link, regs, ram, answers,
    pending⟩ := s
  obtain ⟨setup, workPos, journalPos, fill, queue, reserved, holdGap, lost, seq, contWritten, request,
    output, ret, muster, pollTimer, draws⟩ := link
  obtain ⟨run, configValid, runMark, setupAddr, events, eventEn, eventLine⟩ := regs
  dsimp only at hr ha hs hq
  subst hr ha hs hq
  rfl

/-- The answer of a request does not depend on what stood as the request in progress. -/
@[simp] theorem answered_beginRequest (su : Setup) (n notify : Bool) (r : Req) (st : Status)
    (count resume : Option Nat) (s : State) :
    answered su n st count resume (beginRequest r notify s) = answered su n st count resume s := by
  unfold answered beginRequest
  rfl

/-- A request that its block ends at the take, with the state otherwise as it was. -/
theorem carryOut_endRequest {s : State} {su : Setup} (h : ReadyFor s su) (r : Req) (notify : Bool)
    (st : Status) (count resume : Option Nat) :
    carryOut r notify (endRequest st count resume) s = answered su notify st count resume s := by
  rw [carryOut_ready h]
  exact endRequest_returns (s := beginRequest r notify s) (q := ⟨r, notify, .taken, 0, 0⟩)
    h.running h.answers h.setup rfl st count resume

/-! ### What an answer leaves alone -/

theorem answered_frame (su : Setup) (n : Bool) (st : Status) (count resume : Option Nat) (s : State) :
    let t := answered su n st count resume s
    t.clock = s.clock ∧ t.mode = s.mode ∧ t.cal = s.cal ∧ t.table = s.table ∧ t.lines = s.lines ∧
      t.zones = s.zones ∧ t.doors = s.doors ∧ t.pay = s.pay ∧ t.bells = s.bells ∧ t.fire = s.fire ∧
      t.regs.run = s.regs.run ∧ t.linkAnswers = s.linkAnswers ∧ t.pending = s.pending := by
  unfold answered raise
  dsimp only
  split
  · split <;> exact ⟨rfl, rfl, rfl, rfl, rfl, rfl, rfl, rfl, rfl, rfl, rfl, rfl, rfl⟩
  · exact ⟨rfl, rfl, rfl, rfl, rfl, rfl, rfl, rfl, rfl, rfl, rfl, rfl, rfl⟩

end Sys2Proof.Machine
end

