-- ==== Sys2Proof/Tests/Slice0.lean ====
section
/-! SUPPORT. The model's own tests: ill-formed commands that WellFormed refuses, single commands checked
against the worked examples of the chapters, and for each statement of Obligations.lean the states that
meet its hypotheses, clause by clause. -/

set_option Elab.async false

namespace Sys2Proof.Tests

open Sys2Proof Sys2Proof.Machine

/-! ### Small states -/

/-- The state after one command; a stop leaves it as it was. -/
def after (c : Instr) (s : State) : State :=
  match exec c s with
  | .next t => t
  | .fault _ => s
  | .refused _ => s

/-- A command answers a next state. -/
def runs (c : Instr) (s : State) : Bool :=
  match exec c s with
  | .next _ => true
  | .fault _ => false
  | .refused _ => false

/-- The kinds of the records held, in order. -/
def kinds (s : State) : List Nat := s.link.queue.map (·.body.kind)

/-- 06:00:00 on day 1002, as the worked examples give it. -/
def six : Nat := 86594400

/-- A worker OFF with every accumulator 0. -/
def idleWorker (badge : Nat) (loc : ZoneNo) : Worker :=
  { badge := badge, issue := 0, assignment := .none_, rule := 0, grade := 0, profile := 1, clearance := 0,
    suspended := false, unschedOk := true, location := loc, interval := none, lastKey := none, cday := 0,
    breakTaken := false, lastEOut := 0, reg := 0, night := 0, ot := 0, hol := 0, saturated := false,
    muster := false }

/-- An unscheduled open interval from 06:00. -/
def openAtSix : OpenInterval :=
  { tIn := six, captured := none, rule := 0, late := false, deadline := six + 57600, due := false,
    waiting := false }

/-- A pay rule of the worked examples: quantum 15, FAVOUR_PLANT, grace 5 and 3, break 30 at 360, overtime
at 480, multipliers 10, 12, 16. -/
def ruleFifteen : PayRule :=
  { admitMin := 120, graceLate := 5, graceOut := 3, quantum := 15, rounding := .favourPlant, breakMin := 30,
    breakAt := 360, overtimeAt := 480, nightMul := 10, otMul := 12, holMul := 16 }

/-- Setup values in force: site 77, lists at 0x4000, 0x5000 and 0x6000. -/
def setup : Setup :=
  { site := 77, openLimit := 120, workList := 0x4000, workLog := 2, journal := 0x5000, journalLog := 4,
    threshold := 8, poll := 3, musterArea := 0x6000, musterCapacity := 2 }

/-- A secure door from zone 0 to zone 1 for profile 1. -/
def secureDoor : Door :=
  { Door.reset with
    state := .secure
    entry := { DoorEntry.default with toZone := 1, profiles := 2 } }

/-- A zone that is PRESENT and unlimited, with ceiling 3. -/
def openZone (n : Nat) : Zone :=
  { present := true, type := .floor, capacity := 0, ceiling := 3, occupancy := n, reserved := 0 }

/-- RUNNING on day 1002 at 06:00 under a small configuration: worker 1 settled in zone 1, worker 2 ON
outside, worker 3 OFF with 60 minutes in zone 2; zone 2 is full; line 0 enters door 0, line 2 is a
CLOCK_ONLY toggle. -/
def base : State :=
  { State.reset with
    clock := { Clock.reset with now := ⟨six, 0⟩, valid := true }
    pay := ⟨List.replicate 8 ruleFifteen, List.replicate 32 2000, 1320, 360⟩
    table := ⟨some 256,
      [(1, idleWorker 10 1), (2, { idleWorker 20 0 with interval := some openAtSix }),
        (3, { idleWorker 30 2 with reg := 60 })],
      [(10, 1), (20, 2), (30, 3)]⟩
    zones := (Vector.replicate 15 (openZone 0)).set 0 (openZone 1) |>.set 1
      { openZone 1 with capacity := 1 } |>.set 2 { openZone 0 with present := false }
    doors := Vector.replicate 12 secureDoor
    lines := (State.reset.lines.set 0 { Line.reset with desc := ⟨.doorEntry 0, 0⟩ }).set 2
      { Line.reset with desc := ⟨.clockOnly .toggle, 0⟩ }
    link := { Link.reset with setup := some setup }
    regs := { Regs.reset with run := .running, configValid := true } }

/-- `base` with one door changed. -/
def doorOf0 (f : Door → Door) : State := modDoor 0 f base

/-- `base` with another run state. -/
def baseIn (r : RunState) : State := { base with regs := { base.regs with run := r } }

/-- `base` with no room in the holding queue. -/
def fullQueue : State := { base with link := { base.link with reserved := queueCap base } }

/-- `base` in fire. -/
def inFire (f : FireState) : State := { base with fire := { base.fire with state := f } }

/-- The small state is ready for a request. -/
theorem base_ready : ReadyFor base setup := ⟨rfl, rfl, rfl, rfl, rfl, rfl⟩

/-! ### WellFormed refuses what the slot, the frame or the window cannot carry -/

/-- ENROL parameters that fit. -/
def enrolSeven : EnrolParams := ⟨7, 0, 0, 500, 0, 0, 0, 1, 0, false, true⟩

theorem test_wellFormed_accepts :
    (Instr.enrol true enrolSeven).wellFormed = true ∧ Instr.clearDone.wellFormed = true ∧
    (Instr.registerWrite 28 32 0).wellFormed = true := by decide
theorem test_wellFormed_enrol_slot :
    (Instr.enrol true { enrolSeven with slot := 65536 }).wellFormed = false := by decide
theorem test_wellFormed_enrol_assignment :
    (Instr.enrol true { enrolSeven with assignKind := 256 }).wellFormed = false ∧
    (Instr.enrol true { enrolSeven with assignNo := 256 }).wellFormed = false := by decide
theorem test_wellFormed_enrol_badge :
    (Instr.enrol true { enrolSeven with badge := 4294967296 }).wellFormed = false := by decide
theorem test_wellFormed_enrol_bytes :
    (Instr.enrol true { enrolSeven with issue := 256 }).wellFormed = false ∧
    (Instr.enrol true { enrolSeven with rule := 256 }).wellFormed = false ∧
    (Instr.enrol true { enrolSeven with grade := 256 }).wellFormed = false ∧
    (Instr.enrol true { enrolSeven with profile := 256 }).wellFormed = false ∧
    (Instr.enrol true { enrolSeven with clearance := 256 }).wellFormed = false := by decide
theorem test_wellFormed_amend :
    (Instr.amend true ⟨1, { enrolSeven with slot := 65536 }⟩).wellFormed = false := by decide
theorem test_wellFormed_withdraw :
    (Instr.withdraw true 65536 true ⟨0, 0⟩).wellFormed = false ∧
    (Instr.withdraw true 1 true ⟨0, 65536⟩).wellFormed = false := by decide
theorem test_wellFormed_relocate :
    (Instr.relocate true 65536 1).wellFormed = false ∧
    (Instr.relocate true 1 256).wellFormed = false := by decide
theorem test_wellFormed_statement :
    (Instr.statement true 65536 1 true ⟨0, 1⟩).wellFormed = false ∧
    (Instr.statement true 1 65536 true ⟨0, 1⟩).wellFormed = false ∧
    (Instr.statement true 1 1 true ⟨0, 65536⟩).wellFormed = false := by decide
theorem test_wellFormed_readStatus :
    (Instr.readStatus true ⟨0, 65536⟩).wellFormed = false := by decide
theorem test_wellFormed_setTime : (Instr.setTime true 4294967296).wellFormed = false := by decide
theorem test_wellFormed_calendar :
    (Instr.calSet true 65536 1).wellFormed = false ∧ (Instr.calSet true 1 256).wellFormed = false ∧
    (Instr.calClear true 65536).wellFormed = false := by decide
theorem test_wellFormed_zoneSet :
    (Instr.zoneSet true 256 true 0 0).wellFormed = false ∧
    (Instr.zoneSet true 1 true 256 0).wellFormed = false ∧
    (Instr.zoneSet true 1 true 0 65536).wellFormed = false := by decide
theorem test_wellFormed_doors :
    (Instr.doorMode true 256 0).wellFormed = false ∧ (Instr.doorMode true 0 256).wellFormed = false ∧
    (Instr.doorPulse true 256 0).wellFormed = false ∧ (Instr.doorPulse true 0 256).wellFormed = false ∧
    (Instr.clearFault true 256).wellFormed = false := by decide
theorem test_wellFormed_ring :
    (Instr.ring true 1 256 0).wellFormed = false ∧ (Instr.ring true 1 0 256).wellFormed = false := by decide
theorem test_wellFormed_inject :
    (Instr.inject true ⟨256, 0, 0, 0, 0, 0⟩).wellFormed = false ∧
    (Instr.inject true ⟨0, 256, 0, 0, 0, 0⟩).wellFormed = false ∧
    (Instr.inject true ⟨0, 0, 256, 0, 0, 0⟩).wellFormed = false ∧
    (Instr.inject true ⟨0, 0, 0, 256, 0, 0⟩).wellFormed = false ∧
    (Instr.inject true ⟨0, 0, 0, 0, 65536, 0⟩).wellFormed = false ∧
    (Instr.inject true ⟨0, 0, 0, 0, 0, 4294967296⟩).wellFormed = false := by decide
theorem test_wellFormed_registerWrite :
    (Instr.registerWrite 32 32 0).wellFormed = false ∧ (Instr.registerWrite 2 32 0).wellFormed = false ∧
    (Instr.registerWrite 0 24 0).wellFormed = false := by decide
theorem test_wellFormed_frameEnd :
    (Instr.frameEnd 0 [] false ⟨2831155200, 0⟩).wellFormed = false ∧
    (Instr.frameEnd 0 [] false ⟨0, 16⟩).wellFormed = false := by decide
theorem test_wellFormed_presentation :
    (Instr.presentation 0 ⟨65536, 1, 0, ⟨0, 0⟩⟩).wellFormed = false ∧
    (Instr.presentation 0 ⟨1, 4294967296, 0, ⟨0, 0⟩⟩).wellFormed = false ∧
    (Instr.presentation 0 ⟨1, 1, 16, ⟨0, 0⟩⟩).wellFormed = false ∧
    (Instr.presentation 0 ⟨1, 1, 0, ⟨0, 16⟩⟩).wellFormed = false := by decide

/-! ### The plant clock, by the worked examples of chapter 1 -/

/-- `base` with another plant time. -/
def atTime (sec beat : Nat) : State := { base with clock := { base.clock with now := ⟨sec, beat⟩ } }

/-- The part ISOLATED, where every record stays in the holding queue. -/
def apart : State := baseIn .isolated

/-- ISOLATED with SYNC_ENABLE in force and a sync unit as given; the mark's edge at `pos`. -/
def marked (sync : SyncState) (rho : Int) (pos : Stamp) : State :=
  { apart with
    mode := ⟨false, false, true⟩
    clock := { base.clock with
      now := pos, sync := sync, rho := rho, holdover := 5, edge := some pos, markReady := true } }

theorem test_beatEnd_second :
    (after (.beatEnd 0) (atTime six 15)).clock.now = ⟨six + 1, 0⟩ := by decide +kernel
/-- R20's table: the midnight into day 104. -/
theorem test_beatEnd_midnight_prunes :
    (after (.beatEnd 0) { atTime (104 * 86400 - 1) 15 with cal := { Calendar.empty with
      exceptions := [(90, 6), (95, 7), (97, 6), (101, 5), (120, 7)] } }).cal.exceptions =
    [(97, 6), (101, 5), (120, 7)] := by decide +kernel
/-- The worked slew, d = +7: 896 beats of 15 cycles, then 64 of 14; a block index below ρ adds one. -/
theorem test_slew_shares :
    let c : Clock := { Clock.reset with slew := some (slewFor 7), rho := 13 }
    slewShare (Clock.beat^[895] c) = 15 ∧ slewShare (Clock.beat^[896] c) = 14 ∧
    slewShare (Clock.beat^[959] c) = 14 ∧ slewShare (Clock.beat^[960] c) = 0 ∧
    beatCycles (Clock.beat^[12] c) = 2064 ∧ beatCycles (Clock.beat^[13] c) = 2063 := by decide +kernel
theorem test_slewEnd :
    (after .slewEnd { base with clock := { base.clock with slew := some ⟨true, 14, 0, 0⟩ } }).clock.slew =
      none := by decide +kernel
/-- The worked slew's mark: second 0 beat 7. -/
theorem test_syncMark_slews :
    let t := after .syncMark (marked .locked 12 ⟨six, 7⟩)
    t.clock.lastDev = 7 ∧ t.clock.rho = 13 ∧ t.clock.slew = some ⟨true, 14, 960, 896⟩ ∧
    t.clock.holdover = 1200 ∧ kinds t = [] := by decide +kernel
/-- The worked step: 04:00:03 beat 8, d = +56, with its CLOCK_STEP record. -/
theorem test_syncMark_steps :
    let t := after .syncMark (marked .locked (-4) ⟨86587203, 8⟩)
    t.clock.now = ⟨86587200, 0⟩ ∧ t.clock.rho = -3 ∧ t.clock.lastDev = 56 ∧ kinds t = [0x11] := by
  decide +kernel
/-- The worked sync sequence, 10:52:00: HOLDOVER to LOCKED at d = −5. -/
theorem test_syncMark_relocks :
    let t := after .syncMark (marked .holdover 0 ⟨86611919, 11⟩)
    t.clock.sync = .locked ∧ t.clock.lastDev = -5 ∧ kinds t = [0x12] := by decide +kernel
theorem test_holdoverExpiry :
    let t := after .holdoverExpiry { apart with clock := { base.clock with sync := .locked } }
    t.clock.sync = .holdover ∧ kinds t = [0x12] ∧ flagSet .syncChange t = true := by decide +kernel
theorem test_syncMarkLeadingEdge :
    (after (.syncMarkLeadingEdge true) base).clock.edge = some ⟨six, 0⟩ ∧
    (after (.syncMarkLeadingEdge true) base).clock.markReady = true := by decide +kernel
theorem test_setTime_locked_is_refused :
    let t := after (.setTime true 0) { base with clock := { base.clock with sync := .locked } }
    t.clock.now = ⟨six, 0⟩ ∧ readBytes t.ram 0x4000 3 1 = [byteOf Status.syncOwns.code] := by
  decide +kernel
/-- The shift resolution table of chapter 1: crew 3, shifts 5 and 2. -/
theorem test_resolveShift_table :
    let cal : Calendar := { Calendar.empty with
      shifts := [⟨false, 0, 0⟩, ⟨true, 360, 480⟩, ⟨false, 0, 0⟩, ⟨false, 0, 0⟩, ⟨true, 1320, 480⟩]
      crews := [⟨1, 0, [0]⟩, ⟨1, 0, [0]⟩, ⟨4, 1000, [5, 5, 2, 0]⟩] }
    let at_ := fun t => (resolveShift cal (.crew 3) 120 t).map fun r => (r.day, r.shift)
    at_ 86560200 = some (1001, 5) ∧ at_ 86586600 = some (1001, 5) ∧ at_ 86591400 = some (1002, 2) ∧
    at_ 86594400 = some (1002, 2) ∧ at_ 86623200 = none ∧ at_ 86666400 = none := by decide +kernel
theorem test_calSet_inserts_in_order :
    (after (.calSet true 100 5) { base with cal := { Calendar.empty with
      exceptions := [(97, 6), (101, 5)] } }).cal.exceptions = [(97, 6), (100, 5), (101, 5)] := by
  decide +kernel
theorem test_calClear_removes :
    (after (.calClear true 97) { base with cal := { Calendar.empty with
      exceptions := [(97, 6), (101, 5)] } }).cal.exceptions = [(101, 5)] := by decide +kernel

/-! ### The worker table, by the worked index sequence and the worked withdrawal of chapter 2 -/

/-- `base` with the slots and pairs given. -/
def tableOf (workers : List (Nat × Worker)) (index : List (Nat × Nat)) : State :=
  { base with table := ⟨some 256, workers, index⟩ }

theorem test_enrol_index :
    (after (.enrol true ⟨3, 0, 0, 120, 0, 0, 0, 1, 0, false, true⟩)
      (tableOf [(7, idleWorker 500 0)] [(500, 7)])).table.index = [(120, 3), (500, 7)] := by decide +kernel
theorem test_enrol_slot_before_badge :
    let t := after (.enrol true ⟨3, 0, 0, 500, 0, 0, 0, 1, 0, false, true⟩)
      (tableOf [(3, idleWorker 120 0), (7, idleWorker 500 0)] [(120, 3), (500, 7)])
    t.table.index = [(120, 3), (500, 7)] ∧
    readBytes t.ram 0x4000 3 1 = [byteOf Status.slotInUse.code] := by decide +kernel
theorem test_amend_badge_moves_in_index :
    (after (.amend true ⟨3, ⟨7, 0, 0, 90, 1, 0, 0, 0, 0, false, false⟩⟩)
      (tableOf [(3, idleWorker 120 0), (7, idleWorker 500 0)] [(120, 3), (500, 7)])).table =
    ⟨some 256, [(3, idleWorker 120 0), (7, { idleWorker 90 0 with issue := 1 })], [(90, 7), (120, 3)]⟩ := by
  decide +kernel
theorem test_withdraw_frees :
    let t := after (.withdraw true 1 false ⟨0, 0⟩) base
    t.table.index = [(20, 2), (30, 3)] ∧ t.zones[0].occupancy = 0 := by decide +kernel
/-- The worked forced withdrawal: 06:00 to 14:00 is paid, the statement record reports the worker OFF. -/
theorem test_withdraw_forced :
    let w := { idleWorker 70312 4 with
      reg := 2400
      interval := some ⟨six - 480, some ⟨1002, 2, six, six + 28800⟩, 0, false, six + 36000, false, false⟩ }
    let s := { tableOf [(41, w)] [(70312, 41)] with zones := base.zones.set 3 (openZone 19) }
    let t := after (.withdraw true 41 true ⟨0x8000, 1⟩) s
    t.table.workers = [] ∧ t.zones[3].occupancy = 18 ∧
    (match t.link.output with
      | some (.statement r) => r.reg == 2850 && !r.on && r.location == 4
      | _ => false) = true := by decide +kernel
theorem test_withdrawDeferredResume :
    let s := { base with link := { base.link with
      request := some ⟨.withdraw 2 true ⟨0x8000, 1⟩, true, .deferred, 0, 0⟩ } }
    (after .withdrawDeferredResume s).table.index = [(10, 1), (30, 3)] := by decide +kernel
theorem test_relocate_moves_both_counts :
    let t := after (.relocate true 1 4) base
    (workerAt t 1).map (·.location) = some 4 ∧ t.zones[0].occupancy = 0 ∧ t.zones[3].occupancy = 1 := by
  decide +kernel
theorem test_forgive_moves_off_workers :
    let t := after (.forgive true) base
    t.table.workers.map (·.2.location) = [0, 0, 0] ∧ t.zones[0].occupancy = 0 ∧
    t.zones[1].occupancy = 0 := by decide +kernel

/-! ### Pay, by the worked closings of chapters 6 and 7 -/

/-- The pay tables of `base`: night from 22:00 to 06:00. -/
def payTables : PayTables := base.pay

/-- A calendar in which day 1003 is a holiday. -/
def holidayAfter : Calendar :=
  { Calendar.empty with holidays := [false, false, false, true], exceptions := [(1003, 3)] }

/-- An interval captured for a shift from `ts` to `te`. -/
def captured (tIn ts te : Nat) : OpenInterval :=
  { tIn := tIn, captured := some ⟨1002, 2, ts, te⟩, rule := 0, late := false, deadline := te,
    due := false, waiting := false }

/-- The midnight holiday night shift: in 21:57:05, out 06:47:30. -/
theorem test_closing_holiday_night :
    let r := (closing holidayAfter payTables (idleWorker 1 0)
      (captured 86651825 86652000 86680800) (some 86683650)).2
    (r.eIn, r.eOut, r.reg, r.night, r.ot, r.hol, r.breakMin) =
      (86652000, 86683500, 0, 75, 15, 405, 30) := by decide +kernel
/-- The lunch punches: 240 minutes and LEFT_EARLY, then 165 with LATE and the break. -/
theorem test_closing_lunch :
    let x := closing Calendar.empty payTables (idleWorker 1 0)
      (captured 86593930 six (six + 28800)) (some 86608980)
    let y := closing Calendar.empty payTables x.1
      (captured 86610680 six (six + 28800)) (some 86623650)
    (x.2.reg, x.2.leftEarly, x.1.cday) = (240, true, 240) ∧
    (y.2.reg, y.2.late, y.2.breakMin, y.1.cday, y.1.lastEOut) = (165, true, 30, 405, 86623200) := by
  decide +kernel
/-- Overtime from day minutes first: 14:00 to 24:00. -/
theorem test_closing_overtime :
    let r := (closing Calendar.empty payTables (idleWorker 1 0)
      (captured (1002 * 86400 + 50100) (1002 * 86400 + 50400) (1003 * 86400))
      (some (1003 * 86400 + 60))).2
    (r.reg, r.night, r.ot, r.hol) = (360, 120, 90, 0) := by decide +kernel
/-- Saturation: REG 65,500 and an addition of 480. -/
theorem test_closing_saturates :
    let x := addClasses { idleWorker 1 0 with reg := 65500, night := 300 } 480 0 0 0
    (x.1.reg, x.1.night, x.1.saturated, x.2) = (65535, 300, true, true) := by decide
/-- The NEAREST cases: 10:07:29 rounds to 10:00 and 10:07:30 to 10:15. -/
theorem test_rounding_nearest :
    let r := { ruleFifteen with rounding := .nearest }
    roundIn r 36449 = 36000 ∧ roundIn r 36450 = 36900 ∧ roundOut r 46360 = 46800 := by decide

/-! ### Requests that write output -/

/-- A statement over every slot, in progress, with a capacity of two. -/
def stating (cursor written : Nat) (output : Option HeldOutput) : State :=
  { base with link := { base.link with
      request := some ⟨.statement 0 5 true ⟨0x8000, 2⟩, true, .output, cursor, written⟩
      output := output } }

theorem test_statement_begins :
    (after (.statement true 0 5 true ⟨0x8000, 2⟩) base).link.request =
      some ⟨.statement 0 5 true ⟨0x8000, 2⟩, true, .output, 0, 0⟩ := by decide +kernel
/-- R137: HALT ends a statement that a poll has taken with count 0 and the first in-use slot in range as
resume index, or 0xFFFF. -/
theorem test_halt_ends_taken_statement :
    let s := fun first last => { base with link := { base.link with
      request := some ⟨.statement first last true ⟨0x8000, 2⟩, true, .taken, 0, 0⟩ } }
    let returned := fun first last => (after (.halt false) (s first last)).ram
    readBytes (returned 2 5) 0x4000 3 1 = [byteOf Status.haltedPartial.code] ∧
    readBytes (returned 2 5) 0x4000 8 4 = [0, 0, 2, 0] ∧
    readBytes (returned 4 5) 0x4000 8 4 = [0, 0, 0xFF, 0xFF] := by decide +kernel
theorem test_statementCopy_clears :
    let t := after .statementCopy (stating 3 0 none)
    (workerAt t 3).map (·.reg) = some 0 ∧
    (match t.link.output with
      | some (.statement r) => r.reg == 60 && r.regCents == 2000
      | _ => false) = true := by
  decide +kernel
/-- The worked statement's end: PARTIAL at the capacity, with the next in-use slot as resume index. -/
theorem test_outputWriteDone_partial :
    let t := after .outputWriteDone (stating 3 1 (some (.snapshot [7])))
    readBytes t.ram 0x4000 3 1 = [byteOf Status.partial_.code] ∧
    readBytes t.ram 0x4000 8 4 = [2, 0, 3, 0] := by decide +kernel
/-- R168: a refusal has written no record, read off the return that an error response holds up. -/
theorem test_refused_output_counts_none :
    ∀ c ∈ [Instr.statement true 2 1 true ⟨0x8000, 2⟩, .statement true 1 2 true ⟨0, 2⟩,
        .statement true 1 2 true ⟨0x8002, 2⟩, .readStatus true ⟨0x8000, 0⟩, .readStatus true ⟨0x8001, 1⟩],
      ((after c { base with linkAnswers := [true] }).link.ret).map (·.count) = some (some 0) := by
  decide +kernel
theorem test_readStatus_holds_snapshot :
    (match (after (.readStatus true ⟨0x8000, 1⟩) base).link.output with
      | some (.snapshot b) => b.length == 212 && b.getD 5 0 == 3
      | _ => false) = true := by decide +kernel

/-! ### Doors, by the worked examples of chapter 5 -/

/-- The worked turnstile at rest: release 5 s, held-open limit 20 s, supervised. -/
def turnstile : State :=
  { doorOf0 (fun e => { e with entry := { e.entry with heldLimit := 20, supervised := true } }) with
    regs := apart.regs }

theorem test_rexPress_releases :
    let t := after (.rexPress 0) turnstile
    (t.doors[0].state, t.doors[0].release, t.doors[0].cmd) = (.released, some 80, .released) := by
  decide +kernel
theorem test_contactChange_opens_and_relocks :
    let t := after (.contactChange 0 false) (after (.rexPress 0) turnstile)
    (t.doors[0].state, t.doors[0].held, t.doors[0].cmd, t.doors[0].release) =
      (.open_, some 320, .locked, none) := by decide +kernel
theorem test_contactChange_forced :
    let t := after (.contactChange 0 false) turnstile
    t.doors[0].state = .forced ∧ kinds t = [0x20] ∧ flagSet .doorAlarm t = true := by decide +kernel
theorem test_heldExpiry :
    let t := after (.heldExpiry 0) (modDoor 0 (fun e => { e with
      state := .open_, held := some 0, openStart := some ⟨six - 20, 0⟩ }) turnstile)
    t.doors[0].state = .held ∧ t.doors[0].alarmStart = some ⟨six - 20, 0⟩ ∧ kinds t = [0x21] := by
  decide +kernel
theorem test_releaseExpiry_lapses :
    let g : Grant := ⟨1, 0, true, 0, 1, ⟨six - 5, 0⟩, .passage, false⟩
    let s := modDoor 0 (fun e => { e with
      state := .released, release := some 0, cmd := .released, grant := some g }) turnstile
    let t := after (.releaseExpiry 0) { s with link := { s.link with reserved := 1 } }
    t.doors[0].state = .secure ∧ t.doors[0].grant = none ∧ t.link.reserved = 0 ∧ kinds t = [0x06] := by
  decide +kernel
/-- The worked relay fault: the fourth beat end finds RELEASED under LOCKED. -/
theorem test_settleCheck_finds_fault :
    let s := modDoor 0 (fun e => { e with state := .open_, settle := some 1 }) turnstile
    let t := after (.settleCheck 0) (after (.beatEnd 1) s)
    (after (.beatEnd 1) s).doors[0].found = some ⟨.settle, .locked, .released⟩ ∧
    t.doors[0].state = .fault ∧ t.doors[0].mark = true ∧ kinds t = [0x23] := by decide +kernel
/-- The fourth mismatch in a row is the finding; the third is none. -/
theorem test_driftFinding :
    let third := (fun s => after (.beatEnd 1) s)^[3] turnstile
    let t := after (.driftFinding 0) (after (.beatEnd 1) third)
    third.doors[0].found = none ∧ after (.driftFinding 0) third = third ∧
    t.doors[0].state = .fault ∧ t.doors[0].found = none ∧ kinds t = [0x23] := by decide +kernel
/-- R81: the opening comes first, and the fault found in the same beat then acts on a door without a grant. -/
theorem test_finding_acts_after_the_opening :
    let g : Grant := ⟨1, 0, true, 0, 1, ⟨six, 0⟩, .passage, false⟩
    let s := modDoor 0 (fun e => { e with
      state := .released, cmd := .released, release := some 40, disagree := 3, grant := some g }) turnstile
    let found := after (.beatEnd 0) { s with link := { s.link with reserved := 1 } }
    let opened := after (.contactChange 0 false) found
    let t := after (.driftFinding 0) opened
    found.doors[0].found = some ⟨.drift, .released, .locked⟩ ∧
    (opened.doors[0].state, opened.doors[0].grant, kinds opened) = (.open_, none, [0x05]) ∧
    (t.doors[0].state, t.doors[0].mark, kinds t) = (.fault, true, [0x05, 0x23]) := by decide +kernel
theorem test_doorMode_free :
    let t := after (.doorMode true 0 1) base
    t.doors[0].state = .free ∧ t.doors[0].cmd = .released := by decide +kernel
theorem test_doorPulse_clamps :
    (after (.doorPulse true 0 61) base).doors[0].release = some 960 := by decide +kernel
theorem test_clearFault_checks :
    let t := after (.clearFault true 0) (doorOf0 fun e => { e with
      state := .fault, mark := true, entry := { e.entry with supervised := true } })
    t.doors[0].settle = some 4 ∧ t.link.request.map (·.stage) = some .checking := by decide +kernel

/-! ### Reader lines and presentations, by the worked examples of chapter 3 -/

/-- A frame with its check byte. -/
def framed (b : List Byte) : List Byte := b ++ [checkByte b]

/-- A PRESENT frame of site 77. -/
def presentFrame (badge : Nat) (issue : Byte) : List Byte := framed (0x31 :: le16 77 ++ le32 badge ++ [issue])

/-- The line comes back with its housing open: READER_ONLINE, then READER_TAMPER. -/
theorem test_frameEnd_tamper :
    let t := after (.frameEnd 5 (framed [byteOf FrameKind.tamper.code]) false ⟨six, 0⟩) apart
    t.lines[5].online = true ∧ t.lines[5].tamper = true ∧ t.lines[5].timer = some 96 ∧
    kinds t = [0x19, 0x1A] := by decide +kernel
theorem test_frameEnd_bad_check_byte :
    let t := after (.frameEnd 5 [byteOf FrameKind.hello.code, 0] false ⟨six, 0⟩) apart
    t.lines[5].bad = 1 ∧ t.lines[5].online = false := by decide +kernel
theorem test_readerOffline :
    let s := modLine 5 (fun e => { e with online := true, timer := some 0, bad := 13 }) apart
    (after (.readerOffline 5) s).lines[5].online = false ∧
    (after (.readerOffline 5) s).link.queue.map (·.body) = [.readerOffline 5 13] := by decide +kernel
theorem test_presentation_unknown_badge :
    let t := after (.presentation 0 ⟨77, 99999, 0, ⟨six, 0⟩⟩) apart
    t.lines[0].answer = some ⟨.red, 30⟩ ∧
    t.link.queue.map (·.body) = [.refused none 99999 0 0 (some 0) .unknownBadge] := by decide +kernel
/-- Worker 2 stands outside and takes a grant into zone 1. -/
theorem test_presentation_grant :
    let s := { apart with table := { base.table with workers := [(2, idleWorker 20 0)] } }
    let t := after (.presentation 0 ⟨77, 20, 0, ⟨six, 0⟩⟩) s
    t.lines[0].answer = some ⟨.green, 50⟩ ∧ t.doors[0].state = .released ∧ t.link.reserved = 1 ∧
    t.zones[0].reserved = 1 := by decide +kernel
theorem test_inject_unused_line :
    let s := { base with mode := ⟨true, false, false⟩ }
    let t := after (.inject true ⟨0, 1, 0, 0, 77, 10⟩) s
    readBytes t.ram 0x4000 8 2 = [3, 0] := by decide +kernel
theorem test_zoneSet :
    (after (.zoneSet true 3 true 2 4095) base).zones[2] = ⟨true, .floor, 4095, 2, 0, 0⟩ := by decide +kernel

/-! ### Deadlines, bells and fire -/

/-- `base` with worker 2's interval as given, ISOLATED. -/
def onSince (i : OpenInterval) : State :=
  { apart with table := { base.table with
      workers := [(2, { idleWorker 20 0 with interval := some i })], index := [(20, 2)] } }

/-- The unscheduled auto-close: in 03:10:50, paid nothing, e_in and e_out 03:15. -/
theorem test_deadlineReached_closes :
    let t := after .deadlineReached (onSince { openAtSix with tIn := 86584250, due := true })
    (workerAt t 2).map (fun w => (w.interval, w.lastEOut)) = some (none, 86584500) ∧ kinds t = [0x08] := by
  decide +kernel
theorem test_waitingClosingServed :
    let s := { onSince { openAtSix with waiting := true } with regs := base.regs }
    ((workerAt (after .waitingClosingServed s) 2).bind (·.interval)) = none := by decide +kernel
theorem test_bellEntryReached_sounds :
    let e : BellEntry := ⟨21600, 15, 7, .steady, 8⟩
    let s := { base with bells := { base.bells with due := [(1002, e)] } }
    (after .bellEntryReached s).bells.circuits[2] = .sounding .steady 128 128 ∧
    (after .bellEntryReached s).bells.circuits[3] = .idle := by decide +kernel
/-- The worked forward step: entry 0 is skipped and counted, entry 1 sounds, entry 2 is passed. -/
theorem test_step_forward_bells :
    let plan : List BellEntry := [⟨21300, 7, 3, .pulsed, 10⟩, ⟨21600, 15, 7, .steady, 8⟩,
      ⟨21600, 8, 32, .triple, 1⟩, ⟨50100, 7, 3, .pulsed, 10⟩]
    let s := { atTime 86593800 0 with
      regs := apart.regs
      bells := { base.bells with plan := plan, passed := 86593800 } }
    let t := stepTo ⟨86594445, 0⟩ .setTime s
    t.bells.circuits[0] = .sounding .steady 128 128 ∧ t.bells.circuits[5] = .idle ∧
    t.bells.passed = 86594445 ∧ (planPointer t.bells).2 = some 3 ∧ kinds t = [0x11, 0x28] := by
  decide +kernel
theorem test_setTime_steps :
    (after (.setTime true 86594445) base).clock.now = ⟨86594445, 0⟩ := by decide +kernel
theorem test_soundingEnd :
    let s := modCircuit 1 (fun _ => .sounding .pulsed 160 0) base
    (after (.soundingEnd 1) s).bells.circuits[1] = .idle := by decide +kernel
theorem test_ring_leaves_evacuation :
    let t := after (.ring true 7 0 8) (modCircuit 1 (fun _ => .evacuate 3) base)
    t.bells.circuits[0] = .sounding .steady 128 128 ∧ t.bells.circuits[1] = .evacuate 3 ∧
    t.bells.circuits[3] = .idle := by decide +kernel
theorem test_fireOn_releases_doors :
    let t := after .fireOn apart
    t.doors[11].state = .egress ∧ t.doors[11].cmd = .released ∧ t.bells.circuits[7] = .evacuate 0 ∧
    kinds t = [0x30] := by decide +kernel
theorem test_fireOff_holds :
    let s := { inFire .alarm with regs := apart.regs }
    (after .fireOff s).fire.state = .hold ∧ kinds (after .fireOff s) = [0x31] := by decide +kernel
theorem test_ackfire_clears :
    let s := { inFire .hold with regs := apart.regs }
    (after .ackfire s).fire.state = .clear ∧ kinds (after .ackfire s) = [0x32] := by decide +kernel
theorem test_musterWriteStart :
    let s := { base with fire := { base.fire with state := .alarm, musterPending := true } }
    (after .musterWriteStart s).link.muster.map (fun m => m.entries.map (·.slot)) = some [1, 3] := by
  decide +kernel
theorem test_musterWriteDone :
    let s := { base with link := { base.link with
      muster := some ⟨[⟨1, 1, false, false, 10⟩], ⟨six, 0⟩, ⟨six, 0⟩, 0x6000, 2, 0⟩ } }
    let t := after .musterWriteDone s
    t.link.muster = none ∧ readBytes t.ram 0x6000 16 8 = [1, 0, 1, 0, 10, 0, 0, 0] := by decide +kernel

/-! ### Registers, run states and the memory link -/

theorem test_hardReset_in_fire :
    let t := after (.hardReset 0xFFE true) base
    t.regs.run = .clearing ∧ t.doors[0].contact = .open_ ∧ t.doors[1].contact = .closed ∧
    t.doors[0].state = .egress ∧ t.fire.state = .alarm := by decide +kernel
theorem test_clearDone_makes_the_deferred_record :
    let t := after .clearDone (after (.hardReset 0 true) base)
    t.regs.run = .halted ∧ kinds t = [0x30] := by decide +kernel
theorem test_halt_inactivates :
    (after (.halt false) base).regs.run = .halted ∧
    (after (.halt false) base).doors[0].state = .inactive := by decide +kernel
theorem test_load_starts :
    let s := baseIn .halted
    let t := after (.load true []) { s with regs := { s.regs with setupAddr := 0x1000 } }
    t.regs.run = .loading ∧ t.regs.runMark = true ∧ readBytes t.ram 0x1000 0 4 = [1, 0, 0, 0] := by
  decide +kernel

/-- Host writes of bytes from an address on. -/
def bytesAt (a : Nat) (b : List Byte) : HostWrites :=
  b.zipIdx.map fun e => (BitVec.ofNat 32 (a + e.2), e.1)

/-- A setup block at 0x1000 whose tables pass every test: W = 256, lists at 0x4000 and 0x5000, day
1002 at 06:00, crews of one day, quanta of 1, doors from zone 0 to zone 1. -/
def setupBytes : HostWrites :=
  bytesAt 0x1008 (le16 77 ++ le16 256 ++ le32 six) ++ bytesAt 0x1013 [2] ++ bytesAt 0x101A [4] ++
  bytesAt 0x1020 (le32 0x4000 ++ le32 0x5000) ++ bytesAt 0x1038 (le32 0x2400) ++
  bytesAt 0x1044 (le32 0x2000 ++ le32 0x2200) ++
  (List.range 8).flatMap (fun k => bytesAt (0x2000 + 32 * k) [1]) ++
  (List.range 8).flatMap (fun k => bytesAt (0x2203 + 16 * k) [1]) ++
  (List.range 12).flatMap (fun k => bytesAt (0x2401 + 20 * k) [1])

/-- LOADING after hard reset, with the setup block at 0x1000. -/
def loading : State :=
  { State.reset with
    ram := hostWrite [] setupBytes
    regs := { Regs.reset with run := .loading, setupAddr := 0x1000 } }

theorem test_loadComplete_ok :
    let t := after (.loadComplete []) loading
    t.regs.run = .halted ∧ t.regs.configValid = true ∧ t.clock.now = ⟨six, 0⟩ ∧
    t.doors[11].entry.toZone = 1 ∧ readBytes t.ram 0x1000 0 4 = [0, 0, 0, 0] := by decide +kernel
theorem test_loadComplete_no_time :
    let t := after (.loadComplete (bytesAt 0x100C (le32 0xFFFFFFFF))) loading
    t.regs.run = .halted ∧ t.regs.configValid = false ∧
    readBytes t.ram 0x1000 0 4 = [byteOf LoadCode.noTime.code, 0, 0, 0] := by decide +kernel
theorem test_run_recomputes :
    let s := { doorOf0 (fun e => { e with state := .inactive, contact := .open_ }) with
      regs := { base.regs with run := .halted } }
    (after (.run []) s).regs.run = .running ∧ (after (.run []) s).doors[0].state = .open_ := by
  decide +kernel

/-- A POSTED slot that asks FORGIVE with NOTIFY, at the head of the work list. -/
def postedForgive : HostWrites := bytesAt 0x4000 [0x5A, 0x05, 0x01]

theorem test_poll_takes_slot :
    (after (.poll postedForgive) base).link.request = some ⟨.forgive, true, .taken, 0, 0⟩ := by
  decide +kernel
theorem test_nudge_kind_unknown :
    let t := after (.nudge (bytesAt 0x4000 [0x5A, 0x06])) base
    readBytes t.ram 0x4000 0 1 = [0xA5] ∧
    readBytes t.ram 0x4000 3 1 = [byteOf Status.kindUnknown.code] := by decide +kernel
theorem test_eventsClear :
    (after (.eventsClear 0x0F0) { base with regs := { base.regs with events := 0x0FF } }).regs.events =
      0x00F := by decide +kernel
/-- The worked reload's assignment: DOOR_ALARM on IRQ_B. -/
theorem test_registerWrite_event_lines :
    let s := { base with regs := { base.regs with events := 0x080, eventEn := 0x083 } }
    let t := after (.registerWrite 0x10 32 0x080) s
    irqA t = false ∧ irqB t = true := by decide +kernel
theorem test_linkError_isolates :
    (after (.linkError (.inFlight 0)) base).regs.run = .isolated ∧
    flagSet .linkError (after (.linkError (.inFlight 0)) base) = true := by decide +kernel
/-- R162: access 114 of a load without exceptions reads door entry 3; the failed load names it. -/
theorem test_linkError_names_the_load_entry :
    let t := after (.linkError (.inFlight 114)) loading
    readBytes t.ram 0x1000 0 4 = [14, 9, 3, 0] ∧ t.regs.run = .halted ∧ t.doors = loading.doors := by
  decide +kernel
/-- 10.5: byte by byte, DOOR_HELD (kind 0x21) of door 4 with limit 30, held from 06:00 and beat 5. -/
theorem test_doorHeld_bytes :
    let r : Record := ⟨0x1234, ⟨six, 9⟩, .doorHeld 4 30 ⟨six, 5⟩, 0⟩
    r.firstEntry = [0x21, 0x34, 0x12] ++ le32 six ++ [9, 0, 0xFF, 0xFF, 4, 30] ++ le32 six ++
      5 :: List.replicate 13 0 := by decide +kernel
/-- R144: a PULSED sounding of 3 s is heard in its first and third second. -/
theorem test_pulsed_output :
    ([48, 33, 32, 17, 16, 1].map fun left =>
      circuitOutput (modCircuit 2 (fun _ => .sounding .pulsed 48 left) base) 2) =
      [true, true, false, false, true, true] := by decide +kernel
/-- The worked journal ring: a two-entry record at position 15 writes entry 0 and entry 15. -/
theorem test_journal_ring_wraps :
    let c : ClosingResult := ⟨0, 0, 0, 0, 0, 0, 0, 0, false, false, false, false, false⟩
    let p : PassageInfo := ⟨1, 10, 0, none, 2, false, 1, 1, ⟨six, 0⟩, false⟩
    let t := report (.punchOut p six (some ⟨1002, 2, six, six⟩) c)
      { base with link := { base.link with journalPos := 15 } }
    readBytes t.ram 0x5000 (32 * 15) 2 = [0xF1, 0x02] ∧ readBytes t.ram 0x5000 0 2 = [0xF1, 0xFF] ∧
    t.link.journalPos = 1 ∧ t.link.fill = 2 := by decide +kernel

/-- R147: an entry that H passes in HALTED does not wait for the entry to RUNNING. -/
theorem test_beatEnd_halted_lists_no_entry :
    let s := { atTime (six - 1) 15 with
      regs := (baseIn .halted).regs
      bells := { base.bells with plan := [⟨21600, 15, 7, .steady, 8⟩] } }
    (after (.beatEnd 0) s).bells.due = [] ∧
    (after (.beatEnd 0) { s with regs := base.regs }).bells.due.length = 1 := by decide +kernel
/-- R114: a deadline that counting passes in HALTED is left unmarked, and one that HALT found marked is not
closed in RUNNING once a backward step has put it ahead. -/
theorem test_halt_leaves_deadlines_to_their_times :
    let s := { onSince { openAtSix with deadline := six } with
      clock := (atTime (six - 1) 15).clock, regs := (baseIn .halted).regs }
    let marked := { s with regs := base.regs }
    let halted := after (.halt false) (after (.beatEnd 0) marked)
    let back := { halted with clock := (atTime (six - 100) 0).clock }
    slotsByDeadline (·.due) (after (.beatEnd 0) s) = [] ∧
    slotsByDeadline (·.due) (after (.beatEnd 0) marked) = [2] ∧
    ((workerAt (after (.run []) halted) 2).bind (·.interval)).isSome = false ∧
    ((workerAt (after .deadlineReached (after (.run []) back)) 2).bind (·.interval)).isSome = true := by
  decide +kernel
/-- 11.1: the part has no register there, and writes at 0x18 to 0x1F are disregarded. -/
theorem test_registerWrite_off_the_registers :
    (after (.registerWrite 0x19 32 0xFFFFFFFF) base) = base ∧
    (after (.registerWrite 0x20 32 1) base) = base ∧ runs (.registerWrite 0x20 32 1) base = true := by
  decide +kernel
/-- R172: both owner bytes of a two-entry record are read, so an error at the second isolates although
the first is FILLED. -/
theorem test_second_owner_read_isolates :
    let c : ClosingResult := ⟨0, 0, 0, 0, 0, 0, 0, 0, false, false, false, false, false⟩
    let p : PassageInfo := ⟨1, 10, 0, none, 2, false, 1, 1, ⟨six, 0⟩, false⟩
    let s := { base with ram := writeBytes base.ram 0x5000 0 [0xF1], linkAnswers := [false, true] }
    let t := report (.punchOut p six (some ⟨1002, 2, six, six⟩) c) s
    t.regs.run = .isolated ∧ t.link.queue.length = 1 ∧ t.linkAnswers = [] := by decide +kernel

/-! ### States that meet the hypotheses of the statements

For each statement one theorem with its name, one conjunct for each of its clauses, in the statement's
order; a statement of many parts has one theorem for each, with the part's name behind. -/

theorem test_witness_StepRunsFrontCommand : base.pending = [] := rfl

theorem test_witness_CommandsKeepTheQueue :
    ∃ t : State, exec (.beatEnd 0) { base with pending := [.fireOn] } = .next t := ⟨_, rfl⟩

/-- `base` with a command at the front of its queue. -/
def waiting : State := { base with pending := [.beatEnd 0, .fireOn] }

theorem test_witness_EveryStepKeepsRamCanonical :
    RamCanonical { waiting with ram := [(0x4000, 0x5A)] } ∧
    ∃ t : State, step { waiting with ram := [(0x4000, 0x5A)] } = .next t :=
  ⟨by unfold RamCanonical; decide, _, rfl⟩

/-- `base` with a grant outstanding at door 0 for worker 2, into zone 1. -/
def granted : State :=
  { modDoor 0 (fun e => { e with
      state := .released, cmd := .released, release := some 80
      grant := some ⟨2, 0, true, 0, 1, ⟨six, 0⟩, .passage, false⟩ }) base with
    link := { base.link with reserved := 1 }
    pending := [.beatEnd 0] }

theorem test_witness_EveryStepKeepsPlacesHeld :
    PlacesHeld granted ∧ ∃ t : State, step granted = .next t :=
  ⟨by unfold PlacesHeld; decide +kernel, _, rfl⟩

/-- A CLEAR_FAULT of door 0 whose check has run out, with the readback given. -/
def checking (rb : Relay) : State :=
  { doorOf0 (fun e => { e with
      state := .fault, mark := true, settle := some 0, readback := rb
      entry := { e.entry with supervised := true } }) with
    link := { base.link with request := some ⟨.clearFault 0, true, .checking, 0, 0⟩ } }

/-- A grant at a door, and a check at a marked door that runs out in the step. -/
theorem test_witness_EveryStepKeepsDoorsLawful :
    (ChecksMarked granted ∧ DoorsLawful granted ∧ ∃ t : State, step granted = .next t) ∧
    let s := { checking .locked with pending := [.settleCheck 0] }
    ChecksMarked s ∧ DoorsLawful s ∧ checksDoor s 0 = true ∧ s.doors[0].mark = true ∧
      ∃ t : State, step s = .next t := by
  unfold ChecksMarked DoorsLawful DoorLawful
  exact ⟨⟨by decide +kernel, by decide +kernel, _, rfl⟩,
    by decide +kernel, by decide +kernel, by decide +kernel, by decide +kernel, _, rfl⟩

theorem test_witness_EveryStepKeepsContactsFollowing :
    ContactsFollow granted ∧ granted.mode.rehearsal = false ∧ ∃ t : State, step granted = .next t :=
  ⟨by unfold ContactsFollow; decide +kernel, rfl, _, rfl⟩

theorem test_witness_EveryStepKeepsRunStateSound :
    (ConfigSound waiting ∧ ClearingQuiet waiting ∧ TimeInRange waiting) ∧
    ∃ t : State, step waiting = .next t :=
  ⟨by unfold ConfigSound ClearingQuiet TimeInRange; decide +kernel, _, rfl⟩

theorem test_witness_EveryStepKeepsTableIndexed :
    TableIndexed { tableOf [(7, idleWorker 500 0)] [(500, 7)] with pending := [.forgive true] } ∧
    ∃ t : State, step { tableOf [(7, idleWorker 500 0)] [(500, 7)] with pending := [.forgive true] } =
      .next t := by
  refine ⟨⟨by simp [tableOf], by simp [tableOf], fun badge slot => ?_⟩, _, rfl⟩
  simp only [tableOf, List.mem_singleton, Prod.mk.injEq]
  constructor
  · rintro ⟨rfl, rfl⟩
    exact ⟨_, ⟨rfl, rfl⟩, rfl⟩
  · rintro ⟨w, ⟨rfl, rfl⟩, rfl⟩
    exact ⟨rfl, rfl⟩

theorem test_witness_EveryStepKeepsZonesCounted :
    ZonesCounted { base with pending := [.forgive true] } ∧
    ∃ t : State, step { base with pending := [.forgive true] } = .next t :=
  ⟨by unfold ZonesCounted located; decide +kernel, _, rfl⟩

theorem test_witness_ClockMovesByItsRules :
    (∀ (circuits : DoorPins) (fire : Bool), Instr.slewEnd ≠ .hardReset circuits fire) ∧
    (∃ t : State, exec .slewEnd base = .next t) ∧ base.clock.valid = true ∧
    Instr.slewEnd ≠ .syncMark ∧ TimeInRange base :=
  ⟨(fun _ _ h => by cases h), ⟨_, rfl⟩, rfl, (fun h => by cases h),
    by unfold TimeInRange; decide⟩

/-- CLEARING with an assertion of FIRE_IN deferred. -/
def clearingInFire : State :=
  { State.reset with fire := { FireUnit.reset with
      state := .alarm, captured := some ⟨0, 0⟩, deferred := some (⟨0, 0⟩, 0, false) } }

theorem test_witness_FireStateMovesOnlyAtItsEvents :
    (∃ t : State, exec .fireOff (inFire .alarm) = .next t) ∧
    ((0x10 : Word).getLsbD 4 = true ∧ (0x10 : Word).getLsbD 0 = false ∧
      (after (.registerWrite 0 32 0x10) (inFire .hold)).fire.state = .clear) ∧
    (inFire .hold).fire.state ≠ .alarm ∧ (inFire .alarm).fire.state = .alarm ∧
    (clearingInFire.fire.state = .alarm ∧ clearingInFire.regs.run = .clearing) :=
  ⟨⟨_, rfl⟩, by decide +kernel⟩

theorem test_witness_ClearDoneEntersHalted :
    base.regs.run ≠ .clearing ∧
    (State.reset.regs.run = .clearing ∧ State.reset.fire.deferred = none) ∧
    (clearingInFire.regs.run = .clearing ∧
      clearingInFire.fire.deferred = some (⟨0, 0⟩, 0, false) ∧ clearingInFire.link.queue = [] ∧
      clearingInFire.link.reserved = 0 ∧ clearingInFire.link.holdGap = 0 ∧
      clearingInFire.link.lost = 0 ∧ clearingInFire.table.capacity = none) := by decide +kernel

/-- RUNNING in fire with a muster write in progress. -/
def mustering : State :=
  { inFire .alarm with
    doors := Vector.replicate 12 { secureDoor with state := .egress, cmd := .released }
    link := { base.link with
      muster := some ⟨[⟨1, 1, false, false, 10⟩], ⟨six, 0⟩, ⟨six, 0⟩, 0x6000, 2, 0⟩ } }

theorem test_witness_HaltStopsTheGates :
    ((baseIn .clearing).regs.run = .clearing ∧ (baseIn .halted).regs.run = .halted) ∧
    (baseIn .loading).regs.run = .loading ∧
    (base.regs.run = .running ∧ apart.regs.run = .isolated ∧ base.doors[0].state ≠ .egress ∧
      mustering.doors[0].state = .egress ∧ mustering.link.muster.isSome = true ∧
      fireActive mustering = true ∧ base.bells.circuits[0].isEvac = false) := by decide +kernel

/-- `base` with a request in progress at a stage, and the output held. -/
def asking (r : Req) (g : Stage) (o : Option HeldOutput) : State :=
  { base with link := { base.link with request := some ⟨r, true, g, 0, 0⟩, output := o } }

/-- The clauses of the requests that HALT ends, each at its request and stage. -/
theorem test_witness_HaltStopsTheGates_requests :
    (∀ s ∈ [base, apart], s.linkAnswers = [] ∧ s.link.muster = none ∧ s.link.request = none ∧
      s.link.setup = some setup) ∧
    (∀ (r : Req) (g : Stage) (o : Option HeldOutput), (asking r g o).regs.run = .running ∧
      (asking r g o).linkAnswers = [] ∧ (asking r g o).link.muster = none ∧
      (asking r g o).link.setup = some setup ∧
      (asking r g o).link.request = some ⟨r, true, g, 0, 0⟩ ∧ (asking r g o).link.output = o) ∧
    (∀ r : StatementRec, none ≠ some (HeldOutput.statement r)) ∧
    (let o := HeldOutput.statement (statementRec base.pay ⟨six, 0⟩ 3 { idleWorker 30 2 with reg := 60 } true);
      workerAt (asking (.statement 0 5 true ⟨0x8000, 2⟩) .output (some o)) 3 =
        some { idleWorker 30 2 with reg := 60 }) ∧
    (statementRec base.pay ⟨six, 0⟩ 3 (idleWorker 30 2) false).reset = false ∧
    outputArea .forgive = none ∧ ∀ door : Nat, Req.forgive ≠ .clearFault door := by
  refine ⟨by decide +kernel, fun r g o => ⟨rfl, rfl, rfl, rfl, rfl, rfl⟩, (fun _ h => by cases h),
    by decide +kernel, rfl, rfl, fun _ h => by cases h⟩

/-- HALTED with a setup address. -/
def haltedAt (a : Word) : State := { base with regs := { base.regs with run := .halted, setupAddr := a } }

theorem test_witness_LoadStartEmptiesTables :
    base.regs.run ≠ .halted ∧
    ((haltedAt 63).regs.run = .halted ∧ (haltedAt 63).regs.setupAddr.toNat % 64 ≠ 0) ∧
    ((haltedAt 64).regs.run = .halted ∧ (haltedAt 64).regs.setupAddr.toNat % 64 = 0 ∧
      (haltedAt 64).linkAnswers = []) := by decide +kernel

theorem test_witness_LoadSuccessPutsTablesInForce :
    let m := hostWrite loading.ram []
    let b := readSetup m loading.regs.setupAddr
    loading.regs.run = .loading ∧ loading.linkAnswers = [] ∧ loading.link.request = none ∧
    b.reload = false ∧ firstFault (setupTests loading b) = none ∧
    (allReads m b).all (·.fault.isNone) = true ∧ loading.regs.runMark = false := by decide +kernel

/-- Door entry 0 of the setup block leads from zone 0 to zone 0. -/
theorem test_witness_LoadSuccessPutsTablesInForce_entry :
    let m := hostWrite loading.ram (bytesAt 0x2401 [0])
    let b := readSetup m loading.regs.setupAddr
    firstFault (setupTests loading b) = none ∧
    ((allReads m b).find? (·.fault.isSome)).map (fun e => (e.table, e.entry)) =
      some (.door, 0) := by decide +kernel

/-- A roster of two at 0x2600, slots 5 and 6, badges 10 and the one given. -/
def rosterOf (badge : Nat) : HostWrites :=
  bytesAt 0x1004 [8] ++ bytesAt 0x102C (le32 0x2600 ++ le16 2) ++
  bytesAt 0x2600 (le16 5 ++ [0, 0] ++ le32 10) ++ bytesAt 0x2610 (le16 6 ++ [0, 0] ++ le32 badge)

theorem test_witness_LoadSuccessPutsTablesInForce_roster :
    let m := fun badge => hostWrite loading.ram (rosterOf badge)
    let b := fun badge => readSetup (m badge) loading.regs.setupAddr
    (∀ badge ∈ [10, 11], (b badge).reload = true ∧ (b badge).rosterCount = 2 ∧
      firstFault (setupTests loading (b badge)) = none ∧
      (allReads (m badge) (b badge)).all (·.fault.isNone) = true) ∧
    (after (.loadComplete (rosterOf 11)) loading).table.index = [(10, 5), (11, 6)] ∧
    readBytes (after (.loadComplete (rosterOf 10)) loading).ram 0x1000 0 4 =
      [byteOf LoadCode.roster.code, byteOf TableId.roster.code, 1, 0] := by decide +kernel

theorem test_witness_LoadFailureWritesResultWord :
    let m := hostWrite loading.ram (bytesAt 0x100C (le32 0xFFFFFFFF))
    base.regs.run ≠ .loading ∧
    (loading.regs.run = .loading ∧ loading.linkAnswers = [] ∧
      firstFault (setupTests loading (readSetup m loading.regs.setupAddr)) =
        some ⟨.noTime, .setup, 0⟩) := by decide +kernel

/-- HALTED without a valid configuration. -/
def haltedInvalid : State :=
  { base with regs := { base.regs with run := .halted, configValid := false } }

theorem test_witness_RunRecomputesTheDoors :
    ((baseIn .clearing).regs.run = .clearing ∧ (baseIn .loading).regs.run = .loading ∧
      base.regs.run = .running ∧
      haltedInvalid.regs.run = .halted ∧ haltedInvalid.regs.configValid = false) ∧
    ((haltedAt 0).regs.run = .halted ∧ (haltedAt 0).regs.configValid = true ∧
      (haltedAt 0).linkAnswers = []) ∧
    (let s := haltedAt 0;
      workerAt s 2 = some { idleWorker 20 0 with interval := some openAtSix } ∧
      grantNames s 2 = false ∧ s.link.request = none ∧
      s.table.workers.Pairwise (fun a b => a.1 < b.1) ∧ s.clock.now.sec < openAtSix.deadline ∧
      openAtSix.waiting = false ∧ hasRoom s = true ∧
      slotsByDeadline (fun j => j.deadline ≤ openAtSix.deadline)
        { s with clock := { s.clock with now := ⟨openAtSix.deadline, 0⟩ } } = [2]) ∧
    (apart.regs.run = .isolated ∧ apart.linkAnswers = []) := by decide +kernel

theorem test_witness_PollTakesThePostedSlot :
    (Instr.poll [] = .poll [] ∧ apart.regs.run ≠ .running) ∧
    (ReadyFor base setup ∧ base.link.queue = [] ∧ waitingSlots base = [] ∧
      readByte (hostWrite base.ram []) setup.workList 0 ≠ 0x5A) ∧
    (readByte (hostWrite base.ram (bytesAt 0x4000 [0x5A, 0x06])) setup.workList 0 = 0x5A ∧
      readRequest (hostWrite base.ram (bytesAt 0x4000 [0x5A, 0x06])) setup.workList 0 = none) ∧
    (readByte (hostWrite base.ram postedForgive) setup.workList 0 = 0x5A ∧
      readRequest (hostWrite base.ram postedForgive) setup.workList 0 = some .forgive) :=
  ⟨⟨rfl, by decide⟩, ⟨base_ready, rfl, by decide +kernel, by decide +kernel⟩, by decide +kernel,
    by decide +kernel⟩

theorem test_witness_AckfireEndsTheHold :
    (State.reset.regs.run = .clearing ∧ base.fire.state ≠ .hold) ∧
    ((inFire .hold).regs.run ≠ .clearing ∧ (inFire .hold).fire.state = .hold) := by decide

theorem test_witness_RegisterWritesActByOffset :
    State.reset.regs.run = .clearing ∧ (31 : Nat) ≠ 32 ∧ base.regs.run ≠ .clearing ∧
    (haltedAt 0).regs.run = .halted ∧ (0x14 ≤ 0x14 ∨ 0x14 % 4 ≠ 0) ∧ (0x14 ≤ 0x11 ∨ 0x11 % 4 ≠ 0) := by
  decide

/-- The clauses of the reads and of the two lines, each way. -/
theorem test_witness_RegisterWritesActByOffset_reads :
    let lines := fun events en line => { base with regs := { base.regs with
      events := events, eventEn := en, eventLine := line } }
    ((readRegister (inFire .alarm) 0).getLsbD 8 = true ∧
      (readRegister (inFire .hold) 0).getLsbD 8 = false ∧
      (readRegister (inFire .hold) 0).getLsbD 9 = true) ∧
    (State.reset.clock.valid = false ∧ base.clock.valid = true ∧
      base.clock.now.sec ≤ Config.lastSecond) ∧
    (0x18 ≤ 0x18 ∧ 0x18 ≤ 0x1F ∧ 0x1F ≤ 0x1F) ∧
    (irqA (lines 0x800 0x800 0) = true ∧ irqB (lines 0x800 0x800 0) = false ∧
      irqA (lines 0x801 0x001 0x001) = false ∧ irqB (lines 0x801 0x001 0x001) = true) := by decide +kernel

theorem test_witness_LinkErrorIsolates :
    (base.regs.run = .running ∧ base.link.muster = none) ∧
    (mustering.regs.run = .running ∧ mustering.link.muster =
      some ⟨[⟨1, 1, false, false, 10⟩], ⟨six, 0⟩, ⟨six, 0⟩, 0x6000, 2, 0⟩) ∧
    (loading.regs.run = .loading ∧ loading.linkAnswers = []) ∧
    (baseIn .halted).regs.run = .halted ∧
    (State.reset.regs.run = .clearing ∧ apart.regs.run = .isolated) := by decide +kernel

/-- The clauses of a load that gets past its setup block: its first and last entry, both roster entries of a
reload, and the OK write of a load that keeps the table. -/
theorem test_witness_LinkErrorIsolates_load :
    (let b := readSetup loading.ram loading.regs.setupAddr
    let reads := allReads loading.ram b
    firstFault (setupTests loading b) = none ∧ reads.all (·.fault.isNone) = true ∧ b.reload = false ∧
      reads.length = 146 ∧ reads[0]?.map (fun e => (e.table, e.entry)) = some (.dayType, 0) ∧
      reads[145]?.map (fun e => (e.table, e.entry)) = some (.reader, 23)) ∧
    (let s := { loading with ram := hostWrite loading.ram (rosterOf 11) }
    let b := readSetup s.ram s.regs.setupAddr
    s.regs.run = .loading ∧ s.linkAnswers = [] ∧ firstFault (setupTests s b) = none ∧
      (allReads s.ram b).all (·.fault.isNone) = true ∧ b.reload = true ∧ b.rosterCount = 2 ∧
      RosterFits s.ram b 0) := by
  unfold RosterFits
  decide +kernel

theorem test_witness_BeatEndCountsOn :
    State.reset.regs.run = .clearing ∧
    (base.regs.run ≠ .clearing ∧ base.clock.valid = true ∧
      ((atTime Config.lastSecond 14).clock.now.beat ≠ 15 ∧
        ¬ ((atTime Config.lastSecond 14).clock.now.sec = Config.lastSecond ∧
          (atTime Config.lastSecond 14).clock.now.beat = 15)) ∧
      ((atTime (Config.lastSecond - 1) 15).clock.now.beat = 15 ∧
        ¬ ((atTime (Config.lastSecond - 1) 15).clock.now.sec = Config.lastSecond ∧
          (atTime (Config.lastSecond - 1) 15).clock.now.beat = 15))) ∧
    ((baseIn .halted).regs.run ≠ .clearing ∧
      (atTime Config.lastSecond 15).clock.now.sec = Config.lastSecond ∧
      (atTime Config.lastSecond 15).clock.now.beat = 15) ∧
    (turnstile.doors[0].entry.supervised = true ∧ turnstile.doors[0].mark = false ∧
      turnstile.doors[0].found = none ∧ turnstile.doors[0].settle = none) := by decide +kernel

/-- `base` with the slew, the sync state and the holdover timer given. -/
def disciplined (slew : Option Slew) (sync : SyncState) (holdover : Nat) : State :=
  { base with clock := { base.clock with slew := slew, sync := sync, holdover := holdover } }

theorem test_witness_ClockExpiriesAct :
    let done := disciplined (some ⟨true, 14, 0, 0⟩) .locked 0
    let going := disciplined (some ⟨true, 14, 1, 0⟩) .locked 1
    (done.clock.slew = some ⟨true, 14, 0, 0⟩) ∧ (going.clock.slew = some ⟨true, 14, 1, 0⟩) ∧
    base.clock.slew = none ∧ (done.clock.sync = .locked ∧ done.clock.holdover = 0) ∧
    (base.clock.sync ≠ .locked ∧ going.clock.holdover ≠ 0) := by decide +kernel

theorem test_witness_SlewRemovesTheWholeDeviation :
    (3 ≤ (-3 : Int).natAbs ∧ (-3 : Int).natAbs ≤ 32 ∧
      ({ Clock.reset with slew := some (slewFor (-3)) } : Clock).slew = some (slewFor (-3))) ∧
    (3 ≤ (32 : Int).natAbs ∧ (32 : Int).natAbs ≤ 32) := by decide

theorem test_witness_SyncMarkDisciplinesTheClock :
    let s := marked .locked 0 ⟨six + 29, 15⟩
    (base.clock.edge = none) ∧
    (s.clock.edge = some ⟨six + 29, 15⟩ ∧ s.clock.markReady = true ∧ s.regs.run ≠ .clearing ∧
      s.regs.run ≠ .loading ∧ s.clock.valid = true ∧ s.mode.syncEnable = true ∧
      ¬ (s.clock.now.sec = Config.lastSecond ∧ s.clock.now.beat = 15)) ∧
    ((marked .locked 0 ⟨six, 2⟩).clock.edge = some ⟨six, 2⟩ ∧
      (deviation ⟨six, 2⟩).natAbs = 2 ∧ (deviation ⟨six, 3⟩).natAbs = 3 ∧
      (deviation ⟨six + 2, 0⟩).natAbs = 32 ∧ (deviation ⟨six + 2, 1⟩).natAbs = 33 ∧
      (deviation ⟨six + 30, 0⟩) = -480) ∧
    (marked .unsynced 0 ⟨six, 0⟩).clock.sync ≠ .locked := by decide +kernel

theorem test_witness_EnrolCreatesTheWorker :
    ReadyFor base setup ∧ assignmentOf base.cal 3 0 = none ∧ slotInRange base 256 = false ∧
    (assignmentOf base.cal 1 8 = some (.crew 8) ∧ slotInRange base 255 = true ∧
      (workerAt base 1).isSome = true) ∧
    (workerAt base 255 = none ∧ (lookupBadge 10 base.table.index).isSome = true) ∧
    (workerAt base 255 = none ∧ lookupBadge 4294967294 base.table.index = none) :=
  ⟨base_ready, by decide +kernel⟩

/-- AMEND of a slot's badge. -/
def newBadge (slot badge : Nat) : AmendParams := ⟨1, ⟨slot, 0, 0, badge, 0, 0, 0, 0, 0, false, false⟩⟩

theorem test_witness_AmendWritesThePresentFields :
    ReadyFor base setup ∧ amendInRange base (newBadge 256 1) = false ∧
    (amendInRange base (newBadge 255 1) = true ∧ workerAt base 255 = none) ∧
    (amendInRange base (newBadge 1 20) = true ∧ workerAt base 1 = some (idleWorker 10 1) ∧
      (newBadge 1 20).mask.getLsbD 0 = true ∧ lookupBadge 20 base.table.index = some 2 ∧ 2 ≠ 1) ∧
    (amendInRange base (newBadge 1 99) = true ∧ lookupBadge 99 base.table.index = none ∧
      lookupBadge 10 base.table.index = some 1) := ⟨base_ready, by decide +kernel⟩

theorem test_witness_WithdrawFreesTheSettledWorker :
    ReadyFor base setup ∧ slotInRange base 256 = false ∧
    (slotInRange base 255 = true ∧ workerAt base 255 = none) ∧
    (ReadyFor granted setup ∧ slotInRange granted 2 = true ∧ (workerAt granted 2).isSome = true ∧
      grantNames granted 2 = true) ∧
    (workerAt base 3 = some { idleWorker 30 2 with reg := 60 } ∧ grantNames base 3 = false) ∧
    (workerAt base 1 = some (idleWorker 10 1) ∧ grantNames base 1 = false) :=
  ⟨base_ready, by decide +kernel, by decide +kernel,
    ⟨⟨rfl, rfl, rfl, rfl, rfl, rfl⟩, by decide +kernel⟩, by decide +kernel, by decide +kernel⟩

/-- A forced WITHDRAW of worker 2 that waits. -/
def deferred : State :=
  { base with link := { base.link with
      request := some ⟨.withdraw 2 true ⟨0x8000, 1⟩, true, .deferred, 0, 0⟩ } }

theorem test_witness_ForcedWithdrawSettlesAndFrees :
    (slotInRange base 1 = true ∧ workerAt base 1 = some (idleWorker 10 1) ∧ grantNames base 1 = false ∧
      ReadyFor base setup ∧ (0x8002 : Word).toNat % 4 ≠ 0 ∧ (0x8000 : Word).toNat % 4 = 0 ∧
      (idleWorker 10 1).interval = none) ∧
    (ReadyFor fullQueue setup ∧ hasRoom fullQueue = false ∧
      workerAt fullQueue 2 = some { idleWorker 20 0 with interval := some openAtSix } ∧
      grantNames fullQueue 2 = false) ∧
    (ReadyFor base setup ∧ hasRoom base = true ∧ slotInRange base 2 = true ∧
      workerAt base 2 = some { idleWorker 20 0 with interval := some openAtSix } ∧
      grantNames base 2 = false) ∧
    (deferred.regs.run = .running ∧ hasRoom deferred = true ∧
      workerAt deferred 2 = some { idleWorker 20 0 with interval := some openAtSix } ∧
      grantNames deferred 2 = false ∧ slotInRange deferred 2 = true ∧ deferred.link.request =
        some ⟨.withdraw 2 true ⟨0x8000, 1⟩, true, .deferred, 0, 0⟩) :=
  ⟨⟨by decide +kernel, by decide +kernel, by decide +kernel, base_ready, by decide +kernel⟩,
    ⟨⟨rfl, rfl, rfl, rfl, rfl, rfl⟩, by decide +kernel⟩, ⟨base_ready, by decide +kernel⟩,
    by decide +kernel⟩

theorem test_witness_RelocateMovesTheWorker :
    let w := idleWorker 10 1
    ReadyFor base setup ∧ 15 < 16 ∧ slotInRange base 256 = false ∧
    (slotInRange base 255 = true ∧ workerAt base 255 = none) ∧
    (slotInRange base 1 = true ∧ workerAt base 1 = some w) ∧
    (ReadyFor (inFire .alarm) setup ∧ fireActive (inFire .alarm) = true) ∧
    (fireActive granted = false ∧ grantNames granted 2 = true) ∧
    (fireActive base = false ∧ grantNames base 1 = false ∧ base.zones[2].present = false) ∧
    (w.location ≠ 2 ∧ base.zones[1].present = true ∧ base.zones[1].capacity ≠ 0 ∧
      base.zones[1].capacity ≤ base.zones[1].occupancy + base.zones[1].reserved) ∧
    (base.zones[14].present = true ∧ base.zones[14].capacity = 0) :=
  ⟨base_ready, by decide, by decide +kernel, by decide +kernel, by decide +kernel,
    ⟨⟨rfl, rfl, rfl, rfl, rfl, rfl⟩, by decide +kernel⟩, by decide +kernel, by decide +kernel,
    by decide +kernel, by decide +kernel⟩

theorem test_witness_ForgiveReturnsOffWorkersOutside :
    ReadyFor base setup ∧ base.table.workers.Pairwise (fun a b => a.1 < b.1) ∧
    fireActive base = false ∧
    (ReadyFor (inFire .hold) setup ∧ fireActive (inFire .hold) = true) :=
  ⟨base_ready, by decide +kernel, by decide +kernel, ⟨rfl, rfl, rfl, rfl, rfl, rfl⟩, by decide +kernel⟩

theorem test_witness_StatementCopiesInSlotOrder :
    ReadyFor base setup ∧ slotInRange base 256 = false ∧ slotInRange base 255 = true ∧
    (0x8000 : Word).toNat % 4 = 0 ∧ (0x8003 : Word).toNat % 4 ≠ 0 ∧
    nextInUse base 4 255 = none ∧ nextInUse base 0 255 = some 1 ∧
    ((stating 2 0 none).regs.run = .running ∧ (stating 2 0 none).link.output = none ∧
      (stating 2 0 none).link.request =
        some ⟨.statement 0 5 true ⟨0x8000, 2⟩, true, .output, 2, 0⟩ ∧
      nextInUse (stating 2 0 none) 2 5 = some 2 ∧ (workerAt (stating 2 0 none) 2).isSome = true) :=
  ⟨base_ready, by decide +kernel⟩

/-- A READ_STATUS whose snapshot is held. -/
def snapping : State :=
  { base with link := { base.link with
      request := some ⟨.readStatus ⟨0x8000, 1⟩, true, .output, 0, 0⟩
      output := some (.snapshot [1]) } }

theorem test_witness_OutputIsWrittenInPlaceOrder :
    ReadyFor base setup ∧ (0x8000 : Word) ≠ 0 ∧ (0x8000 : Word).toNat % 4 = 0 ∧
    (snapping.regs.run = .running ∧ snapping.linkAnswers = [] ∧ snapping.link.ret = none ∧
      snapping.link.setup = some setup ∧
      snapping.link.request = some ⟨.readStatus ⟨0x8000, 1⟩, true, .output, 0, 0⟩ ∧
      snapping.link.output = some (.snapshot [1]) ∧
      outputArea (.readStatus ⟨0x8000, 1⟩) = some ⟨0x8000, 1⟩) ∧
    ((stating 4 1 (some (.snapshot [7]))).link.output = some (.snapshot [7]) ∧
      outputArea (.statement 0 5 true ⟨0x8000, 2⟩) = some ⟨0x8000, 2⟩ ∧
      nextInUse (stating 4 1 (some (.snapshot [7]))) 4 5 = none) ∧
    (nextInUse (stating 3 1 (some (.snapshot [7]))) 3 5 = some 3 ∧ 1 + 1 = 2) ∧
    (nextInUse (stating 3 0 (some (.snapshot [7]))) 3 5 = some 3 ∧ 0 + 1 ≠ 2) :=
  ⟨base_ready, by decide +kernel⟩

theorem test_witness_SetTimeStepsTheClock :
    ReadyFor base setup ∧ Config.lastSecond < 2831155200 ∧ 2831155199 ≤ Config.lastSecond ∧
    (ReadyFor (disciplined none .locked 1) setup ∧
      (disciplined none .locked 1).clock.sync = .locked) ∧
    (base.clock.sync ≠ .locked ∧ RamCanonical base) :=
  ⟨base_ready, by decide, by decide, ⟨⟨rfl, rfl, rfl, rfl, rfl, rfl⟩, by decide +kernel⟩,
    by decide +kernel, rfl⟩

/-- The plan of the worked forward step keeps to its day, in order, and a step passes entries of it. -/
theorem test_witness_SetTimeStepsTheClock_plan :
    let plan : List BellEntry := [⟨21300, 7, 3, .pulsed, 10⟩, ⟨21600, 15, 7, .steady, 8⟩,
      ⟨21600, 8, 32, .triple, 1⟩, ⟨50100, 7, 3, .pulsed, 10⟩]
    (∀ e ∈ plan, e.sec < 86400) ∧ plan.Pairwise (fun a b => a.sec ≤ b.sec) ∧
    (passedEntries plan 86593800 86594445).map (fun x => (x.1, x.2.1)) = [(1002, 0), (1002, 1), (1002, 2)] ∧
    (passedEntries plan 86594100 86594399).length = 0 := by decide +kernel

/-- `base` with an exception list. -/
def excepting (l : List (Nat × Nat)) : State := { base with cal := { base.cal with exceptions := l } }

/-- An exception list of 64 days. -/
def fullList : List (Nat × Nat) := (List.range 64).map fun d => (d, 1)

theorem test_witness_CalSetGivesTheDayItsType :
    ReadyFor (excepting fullList) setup ∧
    (exceptionType (excepting fullList).cal 32767 = none ∧
      64 ≤ (excepting fullList).cal.exceptions.length) ∧
    ((exceptionType (excepting fullList).cal 63).isSome = true ∧
      (excepting fullList).cal.exceptions.Pairwise (fun a b => a.1 < b.1)) ∧
    (ReadyFor base setup ∧ base.cal.exceptions.length < 64 ∧
      base.cal.exceptions.Pairwise (fun a b => a.1 < b.1)) :=
  ⟨⟨rfl, rfl, rfl, rfl, rfl, rfl⟩, by decide +kernel, by decide +kernel, base_ready, by decide +kernel⟩

theorem test_witness_CalClearRemovesTheEntry :
    ReadyFor base setup ∧ (∀ x : Nat, (32767, x) ∉ base.cal.exceptions) ∧
    (ReadyFor (excepting [(32767, 3)]) setup ∧
      (32767, 3) ∈ (excepting [(32767, 3)]).cal.exceptions) :=
  ⟨base_ready, (fun _ h => by cases h), ⟨rfl, rfl, rfl, rfl, rfl, rfl⟩, by decide +kernel⟩

theorem test_witness_ZoneSetReplacesTheEntry :
    ReadyFor base setup ∧ 15 < 16 ∧ 4095 < 4096 ∧ 3 < 4 ∧ 1 ≤ 15 ∧ 15 ≤ 15 ∧ 4095 ≤ 4095 ∧ 3 ≤ 3 :=
  ⟨base_ready, by decide⟩

theorem test_witness_DoorModeSetsTheDoor :
    ReadyFor granted setup ∧ (RamCanonical granted ∧ RamCanonical base) ∧
    (∀ s ∈ [granted, base, doorOf0 fun e => { e with state := .held },
        doorOf0 fun e => { e with state := .fault, mark := true }], DoorLawful s s.doors[0]) ∧
    11 < 12 ∧ 2 < 3 ∧ DoorMode.ofCode 2 = some .locked ∧
    granted.doors[0].grant.isSome = true ∧ granted.doors[0].state = .released ∧
    base.doors[0].state = .secure ∧
    (doorOf0 fun e => { e with state := .held }).doors[0].state = .held ∧
    (doorOf0 fun e => { e with state := .fault, mark := true }).doors[0].state = .fault := by
  refine ⟨⟨rfl, rfl, rfl, rfl, rfl, rfl⟩, ⟨rfl, rfl⟩, ?_⟩
  unfold DoorLawful
  decide +kernel

theorem test_witness_DoorPulseReleasesTheDoor :
    ReadyFor base setup ∧ 11 < 12 ∧
    (doorOf0 fun e => { e with entry := { e.entry with mode := .locked } }).doors[0].entry.mode =
      .locked ∧
    (doorOf0 fun e => { e with state := .fault }).doors[0].state = .fault ∧
    (base.doors[0].entry.mode ≠ .locked ∧ base.doors[0].state = .secure ∧
      base.mode.rehearsal = false ∧ base.doors[0].cmd = .locked) ∧
    (ReadyFor { base with mode := ⟨true, false, false⟩ } setup) ∧
    (ReadyFor granted setup ∧ granted.doors[0].state = .released) ∧
    (doorOf0 fun e => { e with state := .forced }).doors[0].state = .forced :=
  ⟨base_ready, by decide, by decide +kernel, by decide +kernel, by decide +kernel,
    ⟨rfl, rfl, rfl, rfl, rfl, rfl⟩, ⟨⟨rfl, rfl, rfl, rfl, rfl, rfl⟩, by decide +kernel⟩,
    by decide +kernel⟩

/-- `base` with door 0 in FAULT, supervised or not. -/
def faulted (supervised : Bool) : State :=
  doorOf0 fun e => { e with
    state := .fault, mark := true, entry := { e.entry with supervised := supervised } }

/-- `base` with the records of one entry given by their times held, and the owner bytes of journal
entries 0 and 1 as given. -/
def holding (times : List Nat) (owners : List Byte) : State :=
  { base with
    ram := (owners.zipIdx).foldl (fun m e => writeBytes m 0x5000 (32 * e.2) [e.1]) base.ram
    link := { base.link with queue := times.map fun n => ⟨n, ⟨six, 0⟩, .fireOff ⟨six, 0⟩, n⟩ } }

/-- A record of two entries. -/
def longBody : RecordBody :=
  .punchOut ⟨1, 10, 0, none, 2, false, 1, 1, ⟨six, 0⟩, false⟩ six (some ⟨1002, 2, six, six⟩)
    ⟨0, 0, 0, 0, 0, 0, 0, 0, false, false, false, false, false⟩

theorem test_witness_MemoryLinkServesInOrder :
    (let s := { base with link := { base.link with request := some ⟨.forgive, true, .taken, 0, 0⟩ } };
      (Instr.forgive true).request = some (.forgive, true) ∧ s.regs.run = .running ∧
      s.link.ret = none ∧ s.link.muster = none ∧
      s.link.request = some ⟨.forgive, true, .taken, 0, 0⟩ ∧
      (Instr.relocate true 1 1).request ≠ some (.forgive, true)) ∧
    (base.link.setup = some setup ∧ base.linkAnswers = [] ∧ apart.regs.run ≠ .running) ∧
    (waitingSlots base = [] ∧ withdrawWaits base = false ∧ base.link.queue = []) ∧
    ((holding [7] [0xF1]).link.queue.length = 1 ∧ waitingSlots (holding [7] [0xF1]) = [] ∧
      readCell (holding [7] [0xF1]).ram (addrAt setup.journal 0) ≠ 0 ∧
      readCell (holding [7] []).ram (addrAt setup.journal 0) = 0 ∧
      readCell (holding [7] [0, 0xF1]).ram (addrAt setup.journal 0) = 0 ∧
      readCell (holding [7] [0, 0xF1]).ram (addrAt setup.journal 32) ≠ 0 ∧
      longBody.entries = 2 ∧ (RecordBody.fireOff ⟨six, 0⟩).entries = 1 ∧
      base.link.contWritten = false ∧ 0 < setup.threshold) := by decide +kernel

theorem test_witness_MemoryLinkServesInOrder_arbiter :
    let held := (holding [7] [0xF1])
    let wait : OpenInterval := { openAtSix with waiting := true }
    (let s := { held with table := (onSince wait).table };
      s.link.queue ≠ [] ∧ hasRoom s = true ∧ waitingSlots s = [2] ∧ withdrawWaits s = false ∧
      s.table.workers.Pairwise (fun a b => a.1 < b.1)) ∧
    (let s := { held with
        link := { held.link with request := some ⟨.withdraw 2 true ⟨0x8000, 1⟩, true, .deferred, 0, 0⟩ } };
      s.link.queue ≠ [] ∧ hasRoom s = true ∧ waitingSlots s = [] ∧
      withdrawTest s 2 true ⟨0x8000, 1⟩ = none ∧
      s.table.workers.Pairwise (fun a b => a.1 < b.1)) ∧
    (let s := { held with
        table := (onSince wait).table
        link := { held.link with request := some ⟨.withdraw 2 true ⟨0x8000, 1⟩, true, .deferred, 0, 0⟩ } };
      waitingSlots s = [2] ∧ withdrawTest s 2 true ⟨0x8000, 1⟩ = none) := by decide +kernel

theorem test_witness_MemoryLinkServesInOrder_records :
    (base.regs.run = .running ∧ base.link.setup = some setup ∧ base.linkAnswers = [] ∧
      base.link.queue = [] ∧ base.link.holdGap = 0 ∧ base.link.lost = 0 ∧ 2 ≤ freePlaces base ∧
      base.link.contWritten = false ∧ longBody.entries = 2) ∧
    (readCell base.ram (addrAt setup.journal 0) = 0 ∧ readCell base.ram (addrAt setup.journal 32) = 0 ∧
      readCell (holding [] [0, 0xF1]).ram (addrAt setup.journal 32) ≠ 0 ∧
      (7 < setup.threshold ∧ setup.threshold ≤ min (2 ^ setup.journalLog) (7 + 2))) ∧
    (let s := { apart with link := { apart.link with holdGap := 3, lost := 2 } };
      s.regs.run ≠ .clearing ∧ s.regs.run ≠ .running ∧ s.link.holdGap ≠ 0 ∧ 2 ≤ freePlaces s) ∧
    (let s := { holding [7] [0xF1] with link := { (holding [7] [0xF1]).link with
        lost := 2, reserved := queueCap base - 2 } };
      s.link.queue ≠ [] ∧ s.link.lost ≠ 0 ∧ freePlaces s = 1) ∧
    (let s := { apart with link := { apart.link with lost := 2, reserved := queueCap base } };
      freePlaces s < 1) := by decide +kernel

theorem test_witness_MemoryLinkServesInOrder_resumption :
    (apart.regs.run = .isolated ∧ apart.linkAnswers = []) ∧
    (let s := { apart with
        linkAnswers := [true]
        link := { apart.link with ret := some ⟨.done, none, none, true, 0⟩ } };
      s.regs.run = .isolated ∧ s.linkAnswers = [true] ∧ s.link.ret = some ⟨.done, none, none, true, 0⟩ ∧
      s.link.setup = some setup) := by decide +kernel

theorem test_witness_RingSoundsTheMaskedCircuits :
    ReadyFor base setup ∧ 2 < 3 ∧ Pattern.ofCode 2 = some .triple ∧ Pattern.ofCode 0 = some .steady :=
  ⟨base_ready, by decide⟩

/-- `base` in rehearsal. -/
def rehearsing : State := { base with mode := ⟨true, false, false⟩ }

theorem test_witness_InjectSuppliesOneEvent :
    (ReadyFor base setup ∧ base.mode.rehearsal = false) ∧
    (ReadyFor rehearsing setup ∧ rehearsing.mode.rehearsal = true) ∧
    (2 < 3 ∧ 23 < 24 ∧ 15 < 16 ∧ 11 < 12 ∧ 1 < 2) ∧
    (rehearsing.lines[23].desc.kind = .unused ∧ 15 ≤ 15) ∧
    (Contact.ofCode 0 = some .closed ∧ rehearsing.doors[11].contact = .closed ∧
      rehearsing.doors[11].state = .secure ∧ RamCanonical rehearsing) ∧
    (rehearsing.doors[11].entry.rexEnable = true ∧ rehearsing.doors[11].cmd = .locked) :=
  ⟨⟨base_ready, by decide⟩, ⟨⟨rfl, rfl, rfl, rfl, rfl, rfl⟩, by decide +kernel⟩, by decide,
    by decide +kernel, ⟨by decide +kernel, by decide +kernel, by decide +kernel, rfl⟩,
    by decide +kernel⟩

theorem test_witness_FramesSuperviseTheLine :
    State.reset.regs.run = .clearing ∧ (base.regs.run ≠ .clearing ∧ judgeFrame [] false = none) ∧
    judgeFrame (presentFrame 500 15) false = some .present ∧
    judgeFrame (framed [byteOf FrameKind.hello.code]) false = some .hello ∧
    (let s := modLine 0 (fun e => { e with online := true, timer := some 0 }) base;
      s.lines[0].online = true ∧ s.lines[0].timer = some 0 ∧ s.lines[0].tamper = false) ∧
    (base.lines[0].online = false ∧ base.lines[0].tamper = false ∧
      judgeFrame (framed [byteOf FrameKind.tamper.code]) false = some .tamper) := by decide +kernel

theorem test_witness_ValidFramesAreJudged :
    judgeFrame (presentFrame 500 15) false = some .present ∧
    judgeFrame (presentFrame 500 16) false = none ∧
    judgeFrame (presentFrame 500 15) true = none := by decide +kernel

theorem test_witness_PresentationIsDecidedInOrder :
    let p : Presentation := ⟨77, 20, 0, ⟨six, 0⟩⟩
    let held := modLine 2 (fun e => { e with holdOff := some (20, ⟨six - 3, 1⟩) }) base
    let free := { base with
      table := { base.table with workers := [(2, { idleWorker 20 0 with location := 0 })] } }
    (nextOnLine 1 p base = true ∧ base.lines[1].desc.kind = .unused) ∧
    (nextOnLine 2 p held = true ∧ gatesRun held = true ∧ held.mode.rehearsal = false ∧
      held.lines[2].desc.kind = .clockOnly .toggle ∧ heldOff held.lines[2].holdOff p = true) ∧
    (nextOnLine 2 p fullQueue = true ∧ fullQueue.lines[2].desc.kind = .clockOnly .toggle ∧
      heldOff fullQueue.lines[2].holdOff p = false ∧ hasRoom fullQueue = false) ∧
    (hasRoom base = true ∧ base.link.setup = some setup ∧ setup.site = 77 ∧
      lookupBadge 99 base.table.index = none) ∧
    (nextOnLine 0 p free = true ∧ gatesRun free = true ∧ free.mode.rehearsal = false ∧
      free.lines[0].desc.kind = .doorEntry 0 ∧ fireActive free = false ∧
      heldOff free.lines[0].holdOff p = false ∧ hasRoom free = true ∧
      lookupBadge p.badge free.table.index = some 2 ∧ workerAt free 2 = some (idleWorker 20 0) ∧
      grantNames free 2 = false ∧ free.doors[0].entry.mode = .card ∧ free.doors[0].state = .secure ∧
      free.doors[0].grant = none ∧ free.doors[0].cmd = .locked ∧
      free.doors[0].entry.isClocking = false ∧ (0 : ZoneNo) = free.doors[0].entry.fromZone ∧
      ∀ i : Fin 15, i.val + 1 = free.doors[0].entry.toZone.val →
        free.zones[i].present = true ∧ free.zones[i].type ≠ .closed ∧ (1 : Nat) ≠ 0 ∧
        free.doors[0].entry.profiles.getLsbD 1 = true ∧
        max 0 free.lines[0].desc.level ≤ free.zones[i].ceiling ∧ free.zones[i].capacity = 0) := by
  decide +kernel

/-- Worker 20 in slot 2 as given, with door 0, zone 1 and line `l` changed. -/
def passing (w : Worker) (e : Door → Door) (z : Zone → Zone) (l : LineNo) (k : ReaderKind) : State :=
  { modLine l (fun r => { r with desc := ⟨k, 0⟩ }) (modZone 1 z (doorOf0 e)) with
    table := ⟨some 256, [(2, w)], [(20, 2)]⟩ }

/-- The check of badge 20 reaches the tests of its worker: its line not UNUSED, not held off, with room, its
site and badge known, its issue level that of a worker not suspended who holds no grant. -/
def checkReachesWorker (l : LineNo) (s : State) : Bool :=
  let p : Presentation := ⟨77, 20, 0, ⟨six, 0⟩⟩
  s.lines[l].desc.kind != .unused &&
    !heldOff s.lines[l].holdOff p && hasRoom s && s.link.setup == some setup &&
    lookupBadge 20 s.table.index == some 2 && !grantNames s 2 &&
    (match workerAt s 2 with
      | some w => w.issue == 0 && !w.suspended
      | none => false)

/-- A presentation of badge 20 in service reaches the tests of its worker. -/
def reachesWorker (l : LineNo) (s : State) : Bool :=
  nextOnLine l ⟨77, 20, 0, ⟨six, 0⟩⟩ s && gatesRun s && !s.mode.rehearsal && checkReachesWorker l s

/-- An INJECT PRESENT of badge 20 in rehearsal meets the same tests, at the plant time now and with site 77:
the states of the presentation check's witnesses, in rehearsal, are ready for a request. -/
theorem test_witness_InjectSuppliesOneEvent_present :
    (∀ (w : Worker) (e : Door → Door) (z : Zone → Zone) (l : LineNo) (k : ReaderKind),
      let s := passing w e z l k
      let t := { s with mode := ⟨true, false, false⟩ }
      ReadyFor t setup ∧ t.mode.rehearsal = true ∧ t.clock.now = ⟨six, 0⟩ ∧
      checkReachesWorker l t = checkReachesWorker l s) ∧
    ReadyFor { inFire .alarm with mode := ⟨true, false, false⟩ } setup ∧
    ReadyFor { granted with mode := ⟨true, false, false⟩ } setup :=
  ⟨fun _ _ _ _ _ => ⟨⟨rfl, rfl, rfl, rfl, rfl, rfl⟩, rfl, rfl, rfl⟩, ⟨rfl, rfl, rfl, rfl, rfl, rfl⟩,
    ⟨rfl, rfl, rfl, rfl, rfl, rfl⟩⟩

theorem test_witness_PresentationStepsDecideInOrder :
    let p : Presentation := ⟨77, 20, 0, ⟨six, 0⟩⟩
    let s := passing (idleWorker 20 0) id id 0 (.doorEntry 0)
    let muster := passing (idleWorker 20 0) id id 3 (.musterPoint 1)
    let burning := { muster with fire := (inFire .alarm).fire }
    (nextOnLine 0 p (inFire .alarm) = true ∧ (ReaderKind.doorEntry 0).door.isSome = true ∧
      fireActive (inFire .alarm) = true) ∧
    (reachesWorker 3 muster = true ∧ fireActive muster = false) ∧
    (nextOnLine 0 p (modLine 0 (fun e => { e with holdOff := some (20, ⟨six - 3, 1⟩) }) s) = true ∧
      heldOff (some (20, ⟨six - 3, 1⟩)) p = true) ∧
    hasRoom { s with link := fullQueue.link } = false ∧
    (reachesWorker 0 s = true ∧ setup.site ≠ 78 ∧ lookupBadge 21 s.table.index = none) ∧
    ((idleWorker 20 0).issue ≠ 1 ∧ ({ idleWorker 20 0 with suspended := true } : Worker).issue = 0) ∧
    (reachesWorker 3 burning = true ∧ fireActive burning = true) ∧
    (nextOnLine 0 p granted = true ∧ grantNames granted 2 = true ∧
      lookupBadge 20 granted.table.index = some 2 ∧ granted.lines[0].desc.kind.code ≠ 4) := by
  decide +kernel

theorem test_witness_PresentationStepsDecideInOrder_clockOnly :
    let on := { idleWorker 20 0 with interval := some openAtSix }
    let barred := { idleWorker 20 0 with unschedOk := false }
    (∀ role ∈ [Role.in_, .out, .toggle], ∀ w ∈ [idleWorker 20 0, on, barred],
      reachesWorker 2 (passing w id id 2 (.clockOnly role)) = true) ∧
    on.interval = some openAtSix ∧ (idleWorker 20 0).interval = none ∧
    resolveShift base.cal .none_ 120 six = none := by decide +kernel

theorem test_witness_PresentationStepsDecideInOrder_refusals :
    let s := fun w e z => passing w e z 0 (.doorEntry 0)
    let w := idleWorker 20 0
    let entry := fun (f : DoorEntry → DoorEntry) (e : Door) => { e with entry := f e.entry }
    (∀ f ∈ [entry fun n => { n with mode := .locked }, fun e => { e with state := .fault },
        fun e => { e with state := .open_ }, entry fun n => { n with profiles := 0 },
        entry fun n => { n with apb := .hard }, entry fun n => { n with clocking := true }],
      reachesWorker 0 (s w f id) = true) ∧
    (∀ z ∈ [fun z : Zone => { z with present := false }, fun z => { z with type := .closed },
        fun z => { z with ceiling := 2 }, fun z => { z with capacity := 1, reserved := 1 }],
      reachesWorker 0 (s w id z) = true) ∧
    ((s w id fun z => { z with present := false }).zones[0].present = false ∧
      (s w id fun z => { z with type := .closed }).zones[0].type = .closed ∧
      (s w id fun z => { z with ceiling := 2 }).zones[0].ceiling < max 3 0 ∧
      (s w id fun z => { z with capacity := 1, reserved := 1 }).zones[0].capacity = 1) ∧
    (reachesWorker 0 (s { w with profile := 0 } id id) = true ∧
      reachesWorker 0 (s { w with clearance := 3 } id fun z => { z with ceiling := 2 }) = true ∧
      reachesWorker 0 (s { w with location := 3 } (entry fun n => { n with apb := .hard }) id) = true ∧
      reachesWorker 0 (s { w with unschedOk := false }
        (entry fun n => { n with clocking := true }) id) = true) := by decide +kernel

theorem test_witness_PresentationStepsDecideInOrder_passages :
    let w := idleWorker 20 0
    let on := { w with interval := some openAtSix }
    let s := fun w clocking st k => passing w (fun e => { e with
      state := st, cmd := relayOf st, entry := { e.entry with clocking := clocking } }) id 0 k
    (∀ v ∈ [w, on], ∀ clocking ∈ [false, true], ∀ st ∈ [DoorState.free, .secure],
      reachesWorker 0 (s v clocking st (.doorEntry 0)) = true ∧
      reachesWorker 0 (s { v with location := 1 } clocking st (.doorExit 0)) = true) ∧
    ((s w true .free (.doorEntry 0)).doors[0].entry.fromZone = 0 ∧
      (s w true .free (.doorEntry 0)).doors[0].entry.mode = .card ∧
      (s w true .secure (.doorEntry 0)).doors[0].grant = none ∧
      base.doors[0].entry.profiles.getLsbD 1 = true ∧ base.zones[0].capacity = 0) := by
  decide +kernel

/-- `base` with door 0 in a state, its relay as that state commands it. -/
def doorIn (st : DoorState) (c : Contact) : State :=
  doorOf0 fun e => { e with state := st, contact := c, cmd := relayOf st }

theorem test_witness_ContactChangesActByDoorState :
    (rehearsing.mode.rehearsal = true ∧ contactOf base.doors[0].entry.polarity true =
      base.doors[0].contact) ∧
    (base.mode.rehearsal = false ∧ contactOf base.doors[0].entry.polarity false ≠
      base.doors[0].contact) ∧
    (doorIn .fault .closed).doors[0].state = .fault ∧
    (base.doors[0].state = .secure ∧ base.doors[0].cmd = .locked) ∧
    ((doorIn .open_ .open_).doors[0].state = .open_ ∧ (doorIn .open_ .open_).doors[0].cmd = .locked ∧
      contactOf (doorIn .open_ .open_).doors[0].entry.polarity true ≠
        (doorIn .open_ .open_).doors[0].contact) ∧
    ((doorIn .held .open_).doors[0].state = .held ∧ (doorIn .forced .open_).doors[0].state = .forced) ∧
    ((doorIn .released .closed).doors[0].state = .released ∧
      (doorIn .released .closed).doors[0].grant = none) ∧
    (granted.doors[0].state = .released ∧
      granted.doors[0].grant = some ⟨2, 0, true, 0, 1, ⟨six, 0⟩, .passage, false⟩ ∧
      (workerAt granted 2).isSome = true ∧ gatesRun granted = true) ∧
    (workerAt base 1 = some (idleWorker 10 1) ∧ (idleWorker 10 1).interval = none ∧
      resolveShift base.cal (idleWorker 10 1).assignment
        (payRule base.pay (idleWorker 10 1).rule).admitMin six = none ∧
      base.clock.now.sec < six + 57600) := by decide +kernel

/-- `base` with door 0 released for the grant of a slot, of a punch kind. -/
def grantedTo (slot : Nat) (kind : PunchKind) : State :=
  { modDoor 0 (fun e => { e with
      state := .released, cmd := .released, release := some 80
      grant := some ⟨slot, 0, true, 0, 1, ⟨six, 0⟩, kind, false⟩ }) base with
    link := { base.link with reserved := 1 } }

/-- A grant of each kind, for the OFF worker 1 and for the ON worker 2, and each door in rehearsal. -/
theorem test_witness_ContactChangesActByDoorState_grants :
    (∀ kind ∈ [PunchKind.punchIn, .punchOut, .reentry, .strayOut, .passage], ∀ slot ∈ [1, 2],
      (grantedTo slot kind).doors[0].state = .released ∧
      (grantedTo slot kind).doors[0].grant = some ⟨slot, 0, true, 0, 1, ⟨six, 0⟩, kind, false⟩ ∧
      (grantedTo slot kind).link.setup = some setup ∧ gatesRun (grantedTo slot kind) = true) ∧
    (∀ kind : PunchKind, workerAt (grantedTo 1 kind) 1 = some (idleWorker 10 1) ∧
      workerAt (grantedTo 2 kind) 2 = some { idleWorker 20 0 with interval := some openAtSix }) ∧
    ∀ (st : DoorState) (c : Contact), ReadyFor { doorIn st c with mode := ⟨true, false, false⟩ } setup :=
  ⟨by decide +kernel, fun _ => ⟨rfl, rfl⟩, fun _ _ => ⟨rfl, rfl, rfl, rfl, rfl, rfl⟩⟩

/-- `base` with door 0 released for the grant of an OFF worker, its timer run out. -/
def lapsing : State :=
  { modDoor 0 (fun e => { e with
      state := .released, cmd := .released, release := some 0
      grant := some ⟨1, 0, true, 0, 1, ⟨six, 0⟩, .passage, false⟩ }) base with
    link := { base.link with reserved := 1 } }

theorem test_witness_RexAndTimersMoveTheDoor :
    rehearsing.mode.rehearsal = true ∧ base.mode.rehearsal = false ∧
    (State.reset.regs.run = .clearing ∧ (doorIn .free .closed).doors[0].state = .free) ∧
    (base.regs.run ≠ .clearing ∧ base.doors[0].entry.rexEnable = true ∧
      base.doors[0].state = .secure ∧ base.doors[0].cmd = .locked) ∧
    (doorIn .released .closed).doors[0].state = .released ∧
    ((doorIn .fault .closed).doors[0].state = .fault ∧ checksDoor (doorIn .fault .closed) 0 = false ∧
      (doorIn .inactive .closed).doors[0].state = .inactive) ∧
    base.doors[0].release ≠ some 0 ∧
    (let s := modDoor 0 (fun e => { e with grant := none }) lapsing;
      s.doors[0].release = some 0 ∧ s.doors[0].state = .released ∧ s.doors[0].grant = none ∧
      s.doors[0].cmd = .released) ∧
    (lapsing.doors[0].grant = some ⟨1, 0, true, 0, 1, ⟨six, 0⟩, .passage, false⟩ ∧
      workerAt lapsing 1 = some (idleWorker 10 1) ∧ (idleWorker 10 1).interval = none) ∧
    (let s := modDoor 0 (fun e => { e with state := .fault, grant := none }) lapsing;
      s.doors[0].release = some 0 ∧ s.doors[0].state = .fault ∧ s.doors[0].cmd = .released) ∧
    (base.doors[0].state ≠ .open_ ∧ base.doors[0].held ≠ some 0) ∧
    (let s := doorOf0 fun e => { e with
        state := .open_, held := some 0, openStart := some ⟨six - 20, 0⟩ };
      s.doors[0].state = .open_ ∧ s.doors[0].held = some 0 ∧
      s.doors[0].openStart = some ⟨six - 20, 0⟩ ∧ s.doors[0].cmd = .locked) := by decide +kernel

/-- The STILL_FAULTED of a press, and a timer run out at each state. -/
theorem test_witness_RexAndTimersMoveTheDoor_windows :
    (∀ rb : Relay, (checking rb).mode.rehearsal = false ∧ (checking rb).regs.run = .running ∧
      (checking rb).linkAnswers = [] ∧ (checking rb).link.setup = some setup ∧
      (checking rb).doors[0].state = .fault ∧ (checking rb).doors[0].entry.rexEnable = true ∧
      (checking rb).link.request = some ⟨.clearFault 0, true, .checking, 0, 0⟩) ∧
    ∀ st ∈ [DoorState.inactive, .fault, .secure, .egress],
      let s := doorOf0 fun e => { e with state := st, release := some 0 }
      s.doors[0].release = some 0 ∧ s.doors[0].state = st :=
  ⟨fun _ => ⟨rfl, rfl, rfl, rfl, rfl, rfl, rfl⟩, by decide +kernel⟩

/-- `lapsing` with door 0 in a state, its grant as given, and a finding of a kind that stands. -/
def finding0 (kind : FaultKind) (st : DoorState) (mark grant : Bool) : State :=
  modDoor 0 (fun e => { e with
    state := st, mark := mark, found := some ⟨kind, .locked, .released⟩
    grant := if grant then e.grant else none }) lapsing

theorem test_witness_RelaySupervisionFindsFaults :
    (base.doors[0].found = none ∧ checksDoor base 0 = false ∧ base.doors[0].settle ≠ some 0) ∧
    (let s := doorOf0 fun e => { e with settle := some 0 };
      s.doors[0].found = none ∧ s.doors[0].settle = some 0 ∧ checksDoor s 0 = false) ∧
    (∀ kind ∈ [FaultKind.settle, .drift],
      (finding0 kind .fault true false).doors[0].mark = true ∧
      (∀ st ∈ [DoorState.inactive, .egress, .fault, .secure, .open_, .held, .forced, .free, .released],
        let s := finding0 kind st false false
        s.doors[0].found = some ⟨kind, .locked, .released⟩ ∧ checksDoor s 0 = false ∧
        s.doors[0].mark = false ∧ s.doors[0].state = st ∧ s.doors[0].grant = none) ∧
      (let s := finding0 kind .released false true;
        s.doors[0].found = some ⟨kind, .locked, .released⟩ ∧ s.doors[0].mark = false ∧
        s.doors[0].state = .released ∧ gatesRun s = true ∧
        s.doors[0].grant = some ⟨1, 0, true, 0, 1, ⟨six, 0⟩, .passage, false⟩ ∧
        workerAt s 1 = some (idleWorker 10 1))) := by
  decide +kernel

/-- The clauses of CLEAR_FAULT, and of the settle check that it waits for. -/
theorem test_witness_RelaySupervisionFindsFaults_clearFault :
    (ReadyFor base setup ∧ 11 < 12) ∧
    (∀ rb : Relay, (checking rb).regs.run = .running ∧ (checking rb).linkAnswers = [] ∧
      (checking rb).link.ret = none ∧ (checking rb).link.setup = some setup ∧
      fireActive (checking rb) = false ∧ (checking rb).doors[0].settle = some 0 ∧
      (checking rb).link.request = some ⟨.clearFault 0, true, .checking, 0, 0⟩ ∧
      (checking rb).doors[0].readback = rb ∧ (checking rb).doors[0].cmd = .locked) ∧
    (ReadyFor (inFire .alarm) setup ∧ fireActive (inFire .alarm) = true) ∧
    (fireActive base = false ∧ base.doors[0].mark = false) ∧
    ∀ supervised : Bool, ReadyFor (faulted supervised) setup ∧
      fireActive (faulted supervised) = false ∧ (faulted supervised).doors[0].mark = true ∧
      (faulted supervised).doors[0].state = .fault ∧
      (faulted supervised).doors[0].entry.supervised = supervised :=
  ⟨⟨base_ready, by decide⟩, (fun rb => ⟨rfl, rfl, rfl, rfl, rfl, rfl, rfl, rfl, rfl⟩),
    ⟨⟨rfl, rfl, rfl, rfl, rfl, rfl⟩, by decide +kernel⟩, by decide +kernel,
    fun b => ⟨⟨rfl, rfl, rfl, rfl, rfl, rfl⟩, rfl, rfl, rfl, rfl⟩⟩

theorem test_witness_DeadlinesCloseIntervals :
    let due : OpenInterval := { openAtSix with due := true }
    let wait : OpenInterval := { openAtSix with waiting := true }
    slotsByDeadline (·.due) base = [] ∧ waitingSlots base = [] ∧
    base.table.workers.Pairwise (fun a b => a.1 < b.1) ∧
    (slotsByDeadline (·.due) (onSince due) = [2] ∧ gatesRun (onSince due) = true ∧
      grantNames (onSince due) 2 = false ∧ hasRoom (onSince due) = true ∧
      (workerAt (onSince due) 2).bind (·.interval) = some due) ∧
    (let s := { onSince due with regs := (baseIn .halted).regs };
      slotsByDeadline (·.due) s = [2] ∧ gatesRun s = false) ∧
    (let s := { onSince due with link := fullQueue.link };
      slotsByDeadline (·.due) s = [2] ∧ gatesRun s = true ∧ hasRoom s = false) ∧
    (let s := { onSince wait with regs := base.regs };
      waitingSlots s = [2] ∧ s.regs.run = .running ∧ hasRoom s = true ∧ withdrawWaits s = false ∧
      (workerAt s 2).bind (·.interval) = some wait) := by decide +kernel

theorem test_witness_ClosingAddsTheClassMinutes :
    let c := captured six six (six + 28800)
    let rule := payRule payTables c.rule
    (c.captured = some ⟨1002, 2, six, six + 28800⟩ ∧ six ≤ six + rule.graceLate * 60 ∧
      six + rule.graceLate * 60 < six + 301) ∧
    (six + 28800 ≤ six + 28800 ∧
      (six + 28620 < six + 28800 ∧ six + 28800 ≤ six + 28620 + rule.graceOut * 60) ∧
      six + 28619 + rule.graceOut * 60 < six + 28800) ∧
    openAtSix.captured = none := by decide

/-- A minute of each class, at the edges of the night window of 22:00 to 06:00. -/
theorem test_witness_ClosingAddsTheClassMinutes_classes :
    minuteKind Calendar.empty payTables (six - 1) = .night ∧
    minuteKind Calendar.empty payTables six = .day ∧
    minuteKind Calendar.empty payTables (1002 * 86400 + 79199) = .day ∧
    minuteKind Calendar.empty payTables (1002 * 86400 + 79200) = .night ∧
    minuteKind holidayAfter payTables (1003 * 86400) = .holiday ∧
    minuteKind holidayAfter { payTables with nStart := 60, nEnd := 60 } 3600 = .day := by decide +kernel

theorem test_witness_RoundingKeepsToTheQuantum :
    1 ≤ ruleFifteen.quantum ∧ ruleFifteen.rounding = .favourPlant ∧
    ({ ruleFifteen with rounding := .nearest, quantum := 1 } : PayRule).rounding = .nearest ∧
    ruleFifteen.quantum * 60 ∣ six := by decide

/-- `base` with a plan entry reached on a day of type 0. -/
def reaching (days : BitVec 8) : State :=
  { base with bells := { base.bells with due := [(1002, ⟨21600, days, 7, .steady, 8⟩)] } }

theorem test_witness_BellEntriesSound :
    base.bells.due = [] ∧
    ((reaching 2).bells.due = [(1002, ⟨21600, 2, 7, .steady, 8⟩)] ∧
      (2 : BitVec 8).getLsbD (dayType base.cal 1002) = false) ∧
    ((reaching 1).bells.due = [(1002, ⟨21600, 1, 7, .steady, 8⟩)] ∧ gatesRun (reaching 1) = true ∧
      (reaching 1).mode.bellsOff = false ∧ (reaching 1).mode.rehearsal = false ∧
      (1 : BitVec 8).getLsbD (dayType (reaching 1).cal 1002) = true) ∧
    (modCircuit 7 (fun _ => .sounding .triple 80 0) base).bells.circuits[7] = .sounding .triple 80 0 ∧
    base.bells.circuits[7] = .idle ∧ base.regs.run ≠ .clearing ∧
    (let sounds := fun left => modCircuit 7 (fun _ => .sounding .triple 80 left) base;
      (sounds 65).bells.circuits[7] = Circuit.beat^[15] (.sounding .triple 80 80) ∧
      (sounds 64).bells.circuits[7] = Circuit.beat^[16] (.sounding .triple 80 80) ∧
      (sounds 0).bells.circuits[7] = Circuit.beat^[80] (.sounding .triple 80 80)) ∧
    (let evacuates := fun p => modCircuit 7 (fun _ => .evacuate p) base;
      (evacuates 39).bells.circuits[7] = Circuit.beat^[39] (.evacuate 0) ∧
      (evacuates 40).bells.circuits[7] = Circuit.beat^[40] (.evacuate 0) ∧
      (evacuates 0).bells.circuits[7] = Circuit.beat^[64] (.evacuate 0)) := by decide +kernel

theorem test_witness_FireOnReleasesEveryDoor :
    (inFire .alarm).fire.state = .alarm ∧
    (base.fire.state ≠ .alarm ∧ base.regs.run ≠ .clearing ∧ base.doors[0].state ≠ .egress ∧
      checkRuns base = false) ∧
    (granted.fire.state ≠ .alarm ∧ granted.doors[0].grant.map (·.slot) = some 2 ∧
      ((workerAt granted 2).bind (·.interval)).map (·.deadline) = some openAtSix.deadline ∧
      granted.clock.now.sec < openAtSix.deadline ∧
      (∀ d : DoorNo, d ≠ 0 → granted.doors[d].grant = none) ∧ checkRuns granted = false) ∧
    ((checking .locked).regs.run = .running ∧ (checking .locked).linkAnswers = [] ∧
      (checking .locked).link.ret = none ∧ (checking .locked).link.setup = some setup ∧
      (checking .locked).link.request = some ⟨.clearFault 0, true, .checking, 0, 0⟩) ∧
    ((inFire .hold).fire.state ≠ .alarm ∧ State.reset.regs.run = .clearing ∧
      State.reset.fire.state ≠ .alarm) := by decide +kernel

/-- `base` in fire with its muster list pending, and the area's capacity given. -/
def pendingMuster (capacity : Nat) : State :=
  { base with
    fire := { base.fire with state := .alarm, captured := some ⟨six, 1⟩, musterPending := true }
    link := { base.link with setup := some { setup with musterCapacity := capacity } } }

theorem test_witness_MusterListIsWrittenWhole :
    (base.link.setup = some setup ∧ base.fire.musterPending = false) ∧
    ((pendingMuster 1).fire.musterPending = true ∧ (pendingMuster 1).regs.run = .running ∧
      (pendingMuster 1).link.muster = none ∧
      (pendingMuster 1).link.setup = some { setup with musterCapacity := 1 } ∧
      setup.musterArea ≠ 0) ∧
    ((pendingMuster 0).fire.musterPending = true ∧ (pendingMuster 0).link.muster = none) ∧
    base.link.muster = none ∧
    (base.table.workers.Pairwise (fun a b => a.1 < b.1) ∧
      (musterSnapshot base).map (fun m => (m.zone, m.slot)) = [(1, 1), (2, 3)]) ∧
    (mustering.regs.run = .running ∧ mustering.linkAnswers = [] ∧
      mustering.link.muster.map (·.next) = some 0) ∧
    (let s := { base with link := { base.link with
        muster := some ⟨[⟨1, 1, false, false, 10⟩, ⟨3, 2, false, false, 30⟩], ⟨six, 0⟩, ⟨six, 0⟩, 0x6000, 2, 1⟩ } };
      s.regs.run = .running ∧ s.linkAnswers = [] ∧
      readBytes (after .musterWriteDone s).ram 0x6000 16 16 = List.replicate 8 0 ++ [3, 0, 2, 0, 30, 0, 0, 0]) :=
  by decide +kernel

theorem test_witness_RecordsJoinTheHoldingQueue :
    (State.reset.link.holdGap = 0 ∧ State.reset.link.lost = 0 ∧ State.reset.regs.run = .clearing) ∧
    (let s := { fullQueue with link := { fullQueue.link with lost := 65535 } };
      s.link.holdGap = 0 ∧ freePlaces s = 0 ∧ s.regs.run ≠ .clearing) ∧
    (apart.link.holdGap = 0 ∧ apart.link.lost = 0 ∧ apart.regs.run ≠ .clearing ∧
      apart.regs.run ≠ .running ∧ 1 ≤ freePlaces apart) ∧
    (let s := { apart with link := { apart.link with reserved := queueCap base - 1 } };
      freePlaces s = 1) ∧
    (let s := holding [six] [0xF1, 0];
      s.regs.run = .running ∧ s.link.queue ≠ [] ∧ s.link.holdGap = 0 ∧ s.link.lost = 0 ∧ 1 ≤ freePlaces s) :=
  by decide +kernel

theorem test_witness_OneEntryRecordsReachTheJournal :
    let filled := { base with ram := writeBytes base.ram 0x5000 0 [0xF1] }
    (base.regs.run = .running ∧ base.link.setup = some setup ∧ base.linkAnswers = [] ∧
      base.link.queue = [] ∧ base.link.holdGap = 0 ∧ base.link.lost = 0 ∧ 2 ≤ freePlaces base ∧
      (RecordBody.fireOff ⟨six, 0⟩).entries = 1 ∧
      readCell base.ram (addrAt setup.journal (32 * (base.link.journalPos % 2 ^ setup.journalLog))) = 0) ∧
    (filled.regs.run = .running ∧
      readCell filled.ram (addrAt setup.journal (32 * (filled.link.journalPos % 2 ^ setup.journalLog)))
        ≠ 0) := by decide +kernel

end Sys2Proof.Tests
end

section
/-! SUPPORT. The exception list (R16, R19): when a day has an entry, and what the removal of a day's
entry does to the type of that day and of every other. -/

namespace Sys2Proof.Machine

/-! ### Looking a day up -/

theorem exceptionType_eq_none_iff {cal : Calendar} {day : Nat} :
    exceptionType cal day = none ↔ ∀ x : Nat, (day, x) ∉ cal.exceptions := by
  rw [exceptionType, Option.map_eq_none_iff, List.find?_eq_none]
  constructor
  · intro h x hx
    exact h (day, x) hx (beq_self_eq_true day)
  · rintro h ⟨d, x⟩ hx hd
    obtain rfl : d = day := eq_of_beq hd
    exact h x hx

/-- A day without an entry takes its type from the week pattern (R16). -/
theorem dayType_of_exceptionType_eq_none {cal : Calendar} {day : Nat}
    (h : exceptionType cal day = none) :
    dayType cal day = cal.week.getD ((day + cal.epochWeekday) % 7) 0 := by
  rw [dayType, h]

/-- Beside the exception list only the week pattern bears on a day's type. -/
theorem dayType_congr_exceptionType {cal : Calendar} {l : List (Nat × Nat)} {day : Nat}
    (h : exceptionType { cal with exceptions := l } day = exceptionType cal day) :
    dayType { cal with exceptions := l } day = dayType cal day := by
  rw [dayType, h, dayType]

/-! ### Removing a day's entry -/

theorem dropException_eq_filter (day : Nat) (l : List (Nat × Nat)) :
    dropException day l = l.filter fun e => e.1 ≠ day :=
  List.filter_congr fun e _ => by rw [bne, beq_eq_decide, decide_not]

theorem exceptionType_dropException_same (cal : Calendar) (day : Nat) :
    exceptionType { cal with exceptions := dropException day cal.exceptions } day = none :=
  exceptionType_eq_none_iff.2 fun x hx => by simp [dropException] at hx

theorem exceptionType_dropException_other (cal : Calendar) {day d : Nat} (hd : d ≠ day) :
    exceptionType { cal with exceptions := dropException day cal.exceptions } d =
      exceptionType cal d := by
  have hfound : ∀ e : Nat × Nat, (decide (e.1 != day ∧ e.1 == d)) = (e.1 == d) := by
    intro e
    by_cases he : e.1 = d <;> simp [he, hd]
  simp only [exceptionType, dropException, List.find?_filter, hfound]

end Sys2Proof.Machine
end

section
/-! CERTIFICATE. CAL_CLEAR (R19), from the three ways its take ends. -/

namespace Sys2Proof.Machine

/-- A request that its block ends at the take, on a state `t` that differs from `s` only in what the
block has changed, is answered on `t`. -/
theorem carryOut_ends {s t : State} {su : Setup} (hs : ReadyFor s su) (ht : ReadyFor t su) {r : Req}
    {notify : Bool} {f : State → State} {st : Status} {count resume : Option Nat}
    (hf : f (beginRequest r notify s) = endRequest st count resume (beginRequest r notify t)) :
    carryOut r notify f s = answered su notify st count resume t := by
  calc carryOut r notify f s
    _ = f (beginRequest r notify s) := carryOut_ready hs r notify f
    _ = endRequest st count resume (beginRequest r notify t) := hf
    _ = carryOut r notify (endRequest st count resume) t := (carryOut_ready ht r notify _).symm
    _ = answered su notify st count resume t := carryOut_endRequest ht r notify st count resume

theorem ReadyFor.withCal {s : State} {su : Setup} (h : ReadyFor s su) (c : Calendar) :
    ReadyFor { s with cal := c } su :=
  { h with }

/-! ### The take -/

theorem takeCalClear_of_lastDay_lt {day : Nat} (h : Config.lastDay < day) (s : State) :
    takeCalClear day s = endRequest .range none none s := by
  rw [takeCalClear, if_pos h]

theorem takeCalClear_of_absent {day : Nat} {s : State} (h : day ≤ Config.lastDay)
    (he : exceptionType s.cal day = none) :
    takeCalClear day s = endRequest .notFound none none s := by
  rw [takeCalClear, if_neg (Nat.not_lt.2 h), if_pos (by rw [he]; rfl)]

theorem takeCalClear_of_present {day : Nat} {s : State} (h : day ≤ Config.lastDay)
    (he : exceptionType s.cal day ≠ none) :
    takeCalClear day s = endRequest .done none none
      { s with cal := { s.cal with exceptions := dropException day s.cal.exceptions } } := by
  rw [takeCalClear, if_neg (Nat.not_lt.2 h), if_neg (by rwa [Option.isNone_iff_eq_none])]

/-! ### The command -/

theorem exec_calClear (notify : Bool) (day : Nat) (s : State) :
    exec (.calClear notify day) s =
      .next (carryOut (.calClear day) notify (takeCalClear day) s) := rfl

/-- Settles O39: the take ends in one of its three ways, and with the day's entry dropped the lookup
finds none for that day and the same as before for any other. -/
theorem calClearRemovesTheEntry : Obligations.CalClearRemovesTheEntry := by
  intro notify day s su h
  refine ⟨fun hday => ?_, fun hday habsent => ?_, fun x hday hx => ?_⟩
  · rw [exec_calClear, carryOut_ends h h (takeCalClear_of_lastDay_lt hday _)]
  · have hnone : exceptionType s.cal day = none := exceptionType_eq_none_iff.2 habsent
    rw [exec_calClear, carryOut_ends h h (takeCalClear_of_absent hday hnone)]
  · have hpresent : exceptionType s.cal day ≠ none := fun he => exceptionType_eq_none_iff.1 he x hx
    rw [← dropException_eq_filter]
    refine ⟨?_, ?_, fun d hd => ?_⟩
    · exact congrArg Host.Outcome.next
        (carryOut_ends h (h.withCal _) (takeCalClear_of_present hday hpresent))
    · exact dayType_of_exceptionType_eq_none (exceptionType_dropException_same s.cal day)
    · exact dayType_congr_exceptionType (exceptionType_dropException_other s.cal hd)

end Sys2Proof.Machine
end

section
/-! SUPPORT. What the requests of the worker table need beside the lists' own laws: a slot without an
entry, a write and a count at one slot of a list in slot order (R27), the entry of a zone (R66), and the
updates of worker and zone that a request in progress does not see. -/

namespace Sys2Proof.Machine

/-! ### One slot of the table -/

/-- A slot reads as nothing exactly when no worker is listed there. -/
theorem lookupSlot_eq_none {slot : Nat} :
    ∀ {l : List (Nat × Worker)}, lookupSlot slot l = none ↔ ∀ e ∈ l, e.1 ≠ slot
  | [] => by simp [lookupSlot]
  | (k, v) :: rest => by
    unfold lookupSlot
    split
    · next e => simp [e]
    · next e => simp [lookupSlot_eq_none (l := rest), Ne.symm e]

/-- Writing an in-use slot changes the entry of that slot alone. -/
theorem putSlot_eq_map {slot : Nat} {w : Worker} (v : Worker) :
    ∀ {l : List (Nat × Worker)}, l.Pairwise (fun a b => a.1 < b.1) → lookupSlot slot l = some w →
      putSlot slot v l = l.map fun e => if e.1 = slot then (slot, v) else e
  | (k, u) :: rest, hp, hw => by
    rw [List.pairwise_cons] at hp
    by_cases hk : slot = k
    · have hrest : ∀ e ∈ rest, (if e.1 = slot then (slot, v) else e) = e := fun e he =>
        if_neg (hk ▸ (hp.1 e he).ne')
      simp [putSlot, hk, List.map_congr_left (hk ▸ hrest)]
    · have hw' : lookupSlot slot rest = some w := by simpa [lookupSlot, hk] using hw
      have hlt : k < slot := hp.1 _ (mem_of_lookupSlot hw')
      simp [putSlot, hk, Nat.not_lt.2 hlt.le, Ne.symm hk, putSlot_eq_map v hp.2 hw']

/-- In a list in slot order the entries of one slot are its worker, if it has one. -/
theorem countP_slot {slot : Nat} (q : Worker → Bool) {l : List (Nat × Worker)}
    (hp : l.Pairwise (fun a b => a.1 < b.1)) :
    l.countP (fun e => e.1 = slot && q e.2) = if (lookupSlot slot l).any q then 1 else 0 := by
  induction l with
  | nil => rfl
  | cons e rest ih =>
    obtain ⟨k, w⟩ := e
    rw [List.pairwise_cons] at hp
    rw [List.countP_cons, ih hp.2]
    by_cases hk : slot = k
    · subst hk
      have hnone : lookupSlot slot rest = none :=
        lookupSlot_eq_none.2 fun e he => (hp.1 e he).ne'
      simp [hnone, lookupSlot]
    · simp [lookupSlot, hk, Ne.symm hk]

/-! ### The entry of a zone -/

theorem zoneAt_eq_some_iff {s : State} {z : ZoneNo} {e : Zone} :
    zoneAt s z = some e ↔ ∃ i : Fin 15, i.val + 1 = z.val ∧ s.zones[i] = e := by
  unfold zoneAt zoneIndex
  split
  · next h => simp [h]
  · next h =>
    constructor
    · intro he
      exact ⟨⟨z.val - 1, by omega⟩, by dsimp only; omega, by simpa using he⟩
    · rintro ⟨i, hi, rfl⟩
      have : (⟨z.val - 1, by omega⟩ : Fin 15) = i := Fin.ext (by dsimp only; omega)
      simp [this]

theorem exists_zone_iff {s : State} {z : ZoneNo} {P : Zone → Prop} :
    (∃ i : Fin 15, i.val + 1 = z.val ∧ P s.zones[i]) ↔ ∃ e, zoneAt s z = some e ∧ P e := by
  simp only [zoneAt_eq_some_iff]
  constructor
  · rintro ⟨i, hi, hP⟩
    exact ⟨_, ⟨i, hi, rfl⟩, hP⟩
  · rintro ⟨_, ⟨i, hi, rfl⟩, hP⟩
    exact ⟨i, hi, hP⟩

/-- An update of one zone changes the zones alone. -/
theorem modZone_eq (z : ZoneNo) (f : Zone → Zone) (s : State) :
    modZone z f s = { s with zones := (modZone z f s).zones } := by
  unfold modZone
  split <;> rfl

theorem modZone_zero (f : Zone → Zone) (s : State) : modZone 0 f s = s := rfl

/-! ### A move beside the request in progress -/

theorem modZone_beginRequest (z : ZoneNo) (f : Zone → Zone) (r : Req) (notify : Bool) (s : State) :
    modZone z f (beginRequest r notify s) = beginRequest r notify (modZone z f s) := by
  unfold modZone
  split <;> rfl

theorem movedTo_beginRequest (slot : Nat) (w : Worker) (z : ZoneNo) (r : Req) (notify : Bool)
    (s : State) :
    movedTo slot w z (beginRequest r notify s) = beginRequest r notify (movedTo slot w z s) := by
  unfold movedTo
  split
  · rfl
  · rw [← modZone_beginRequest, ← modZone_beginRequest]
    rfl

/-- A part stays ready through whatever leaves its registers and its memory link alone. -/
theorem ReadyFor.of_eq {s t : State} {su : Setup} (h : ReadyFor s su) (hregs : t.regs = s.regs)
    (hlink : t.link = s.link) (hanswers : t.linkAnswers = s.linkAnswers) : ReadyFor t su where
  running := hregs ▸ h.running
  request := hlink ▸ h.request
  ret := hlink ▸ h.ret
  muster := hlink ▸ h.muster
  answers := hanswers ▸ h.answers
  setup := hlink ▸ h.setup

theorem ReadyFor.movedTo {s : State} {su : Setup} (h : ReadyFor s su) (slot : Nat) (w : Worker)
    (z : ZoneNo) : ReadyFor (movedTo slot w z s) su := by
  unfold Machine.movedTo
  split
  · exact h
  · exact h.of_eq (by simp) (by simp) (by simp)

end Sys2Proof.Machine
end

section
/-! CERTIFICATE. ENROL (R32), from the outcomes of its test. -/

namespace Sys2Proof.Machine

/-! ### The test -/

/-- What R32 asks of the parameters before it looks at the table, the assignment aside. -/
def EnrolFits (s : State) (p : EnrolParams) : Prop :=
  slotInRange s p.slot = true ∧ 1 ≤ p.badge ∧ p.badge < Config.allOnes ∧ p.issue ≤ 15 ∧
    p.rule ≤ 7 ∧ p.grade ≤ 31 ∧ p.profile ≤ 63 ∧ p.clearance ≤ 3

theorem enrolFits_iff {s : State} {p : EnrolParams} :
    EnrolFits s p ↔ (slotInRange s p.slot && badgeInRange p.badge && fieldsInRange p) = true := by
  simp only [EnrolFits, badgeInRange, fieldsInRange, Bool.and_eq_true, and_assoc, decide_eq_true_iff]

theorem enrolTest_of_unfit {s : State} {p : EnrolParams}
    (h : assignmentOf s.cal p.assignKind p.assignNo = none ∨ ¬ EnrolFits s p) :
    enrolTest s p = .error .range := by
  unfold enrolTest
  split
  · rfl
  · next a ha =>
    have hunfit : ¬ EnrolFits s p := h.resolve_left (by simp [ha])
    rw [enrolFits_iff, Bool.not_eq_true] at hunfit
    rw [hunfit]
    rfl

/-- With parameters that pass, ENROL looks for the slot and then for the badge. -/
theorem enrolTest_of_fits {s : State} {p : EnrolParams} {a : Assignment}
    (ha : assignmentOf s.cal p.assignKind p.assignNo = some a) (hfits : EnrolFits s p) :
    enrolTest s p = if (workerAt s p.slot).isSome then .error .slotInUse
      else if (lookupBadge p.badge s.table.index).isSome then .error .badgeInUse else .ok a := by
  unfold enrolTest
  rw [ha]
  dsimp only
  rw [enrolFits_iff.1 hfits]
  rfl

/-! ### The command -/

theorem exec_enrol (notify : Bool) (p : EnrolParams) (s : State) :
    exec (.enrol notify p) s = .next (carryOut (.enrol p) notify (takeEnrol p) s) := rfl

theorem exec_enrol_of_error {s : State} {su : Setup} {p : EnrolParams} {st : Status}
    (h : ReadyFor s su) (notify : Bool) (ht : enrolTest s p = .error st) :
    exec (.enrol notify p) s = .next (answered su notify st (some 0) none s) := by
  have hb : enrolTest (beginRequest (.enrol p) notify s) p = .error st := ht
  rw [exec_enrol, carryOut_ends h h (by rw [takeEnrol, hb])]

theorem exec_enrol_of_ok {s : State} {su : Setup} {p : EnrolParams} {a : Assignment}
    (h : ReadyFor s su) (notify : Bool) (ht : enrolTest s p = .ok a) :
    exec (.enrol notify p) s =
      .next (answered su notify .done (some 0) none (enrolWorker p a s)) := by
  have hb : enrolTest (beginRequest (.enrol p) notify s) p = .ok a := ht
  have hready : ReadyFor (enrolWorker p a s) su := h.of_eq rfl rfl rfl
  rw [exec_enrol, carryOut_ends h hready (by rw [takeEnrol, hb]; rfl)]

/-- Settles O28: the test refuses with RANGE, SLOT_IN_USE and BADGE_IN_USE in this order, and what passes
it is enrolled. -/
theorem enrolCreatesTheWorker : Obligations.EnrolCreatesTheWorker := by
  intro notify p s su h
  refine ⟨fun hunfit => exec_enrol_of_error h notify (enrolTest_of_unfit hunfit),
    fun a ha hfits => ⟨fun hslot => ?_, fun hslot hbadge => ?_, fun hslot hbadge => ?_⟩⟩
  · exact exec_enrol_of_error h notify (by rw [enrolTest_of_fits ha hfits, if_pos hslot])
  · exact exec_enrol_of_error h notify (by simp [enrolTest_of_fits ha hfits, hslot, hbadge])
  · exact exec_enrol_of_ok h notify (by simp [enrolTest_of_fits ha hfits, hslot, hbadge])

end Sys2Proof.Machine
end

section
/-! CERTIFICATE. RELOCATE (R38), from the outcomes of its test. -/

namespace Sys2Proof.Machine

/-! ### The test -/

theorem zoneOf_eq_none {zone : Nat} (h : 15 < zone) : zoneOf zone = none := dif_neg (by omega)

theorem zoneOf_val (z : ZoneNo) : zoneOf z.val = some z := dif_pos z.isLt

theorem relocateTest_of_zone_gt {s : State} {slot zone : Nat} (h : 15 < zone) :
    relocateTest s slot zone = .error .range := by
  rw [relocateTest, zoneOf_eq_none h]

theorem relocateTest_of_slot_not_inRange {s : State} {slot zone : Nat}
    (h : slotInRange s slot = false) : relocateTest s slot zone = .error .range := by
  unfold relocateTest
  split
  · rfl
  · rw [h]
    rfl

theorem relocateTest_of_slot_empty {s : State} {slot : Nat} (z : ZoneNo)
    (hr : slotInRange s slot = true) (hw : workerAt s slot = none) :
    relocateTest s slot z.val = .error .slotEmpty := by
  simp [relocateTest, zoneOf_val, hr, hw]

/-- With a zone number and a worker there, RELOCATE looks for fire, for a grant, and then at the entry of
the zone, which zone 0 lacks (R66). -/
theorem relocateTest_of_worker {s : State} {slot : Nat} {w : Worker} (z : ZoneNo)
    (hr : slotInRange s slot = true) (hw : workerAt s slot = some w) :
    relocateTest s slot z.val =
      if fireActive s then .error .fireActive
      else if grantNames s slot then .error .grantPending
      else (zoneAt s z).elim (.ok z) fun e =>
        if !e.present then .error .zoneAbsent
        else if decide (w.location ≠ z) && zoneFull e then .error .zoneFull
        else .ok z := by
  simp only [relocateTest, zoneOf_val, hr, hw]
  cases zoneAt s z <;> rfl

theorem zoneFull_iff {e : Zone} :
    zoneFull e = true ↔ e.capacity ≠ 0 ∧ e.capacity ≤ e.occupancy + e.reserved := by
  simp [zoneFull]

/-! ### The command -/

theorem exec_relocate (notify : Bool) (slot zone : Nat) (s : State) :
    exec (.relocate notify slot zone) s =
      .next (carryOut (.relocate slot zone) notify (takeRelocate slot zone) s) := rfl

theorem exec_relocate_of_error {s : State} {su : Setup} {slot zone : Nat} {st : Status}
    (h : ReadyFor s su) (notify : Bool) (ht : relocateTest s slot zone = .error st) :
    exec (.relocate notify slot zone) s = .next (answered su notify st (some 0) none s) := by
  have hb : relocateTest (beginRequest (.relocate slot zone) notify s) slot zone = .error st := ht
  rw [exec_relocate, carryOut_ends h h (by rw [takeRelocate, hb])]

theorem exec_relocate_of_ok {s : State} {su : Setup} {slot zone : Nat} {z : ZoneNo} {w : Worker}
    (h : ReadyFor s su) (notify : Bool) (hw : workerAt s slot = some w)
    (ht : relocateTest s slot zone = .ok z) :
    exec (.relocate notify slot zone) s =
      .next (answered su notify .done (some 0) none (movedTo slot w z s)) := by
  have hb : relocateTest (beginRequest (.relocate slot zone) notify s) slot zone = .ok z := ht
  have hwb : workerAt (beginRequest (.relocate slot zone) notify s) slot = some w := hw
  rw [exec_relocate, carryOut_ends h (h.movedTo slot w z) (by
    rw [takeRelocate, hb]
    dsimp only
    rw [moveWorker_eq z hwb, movedTo_beginRequest])]

/-- Settles O32: each refusal is an outcome of the test, and what passes it is a move of the worker with
both counts. -/
theorem relocateMovesTheWorker : Obligations.RelocateMovesTheWorker := by
  intro notify slot zone s su h
  refine ⟨fun hrange => ?range, fun hzone hr hw => ?empty, ?worker⟩
  case range =>
    exact exec_relocate_of_error h notify
      (hrange.elim relocateTest_of_zone_gt relocateTest_of_slot_not_inRange)
  case empty =>
    exact exec_relocate_of_error h notify
      (relocateTest_of_slot_empty ⟨zone, by omega⟩ hr hw)
  case worker =>
    rintro w z rfl hr hw
    have htest := relocateTest_of_worker z hr hw
    dsimp only
    rw [exists_zone_iff (P := fun e => e.present = false),
      exists_zone_iff (P := fun e => e.capacity ≠ 0 ∧ e.capacity ≤ e.occupancy + e.reserved)]
    simp only [← zoneFull_iff]
    refine ⟨fun hfire => ?_, fun hfire hgrant => ?_, fun hfire hgrant habsent => ?_,
      fun hfire hgrant hpresent hfull => ?_, fun hfire hgrant hpresent hroom => ?_⟩
    · exact exec_relocate_of_error h notify (by simp [htest, hfire])
    · exact exec_relocate_of_error h notify (by simp [htest, hfire, hgrant])
    · obtain ⟨e, he, habsent⟩ := habsent
      exact exec_relocate_of_error h notify (by simp [htest, hfire, hgrant, he, habsent])
    · obtain ⟨hne, e, he, hfull⟩ := hfull
      have hp : e.present = true := by simpa [he] using hpresent
      exact exec_relocate_of_error h notify (by simp [htest, hfire, hgrant, he, hp, hne, hfull])
    · refine exec_relocate_of_ok h notify hw ?_
      cases he : zoneAt s z with
      | none => simp [htest, hfire, hgrant, he]
      | some e =>
        have hp : e.present = true := by simpa [he] using hpresent
        have hfree : (decide (w.location ≠ z) && zoneFull e) = false := by simpa [he] using hroom
        rw [htest, hfire, hgrant, he, Option.elim_some, hp, hfree]
        rfl

end Sys2Proof.Machine
end

section
/-! CERTIFICATE. FORGIVE (R39): the moves to zone 0, taken one slot after the other, come to one update
of the whole table. -/

namespace Sys2Proof.Machine

/-! ### The workers of some slots, sent outside -/

/-- A table entry with its worker in zone 0 if its slot is one of `ks`. -/
def entryOutside (ks : List Nat) (e : Nat × Worker) : Nat × Worker :=
  if e.1 ∈ ks then (e.1, { e.2 with location := 0 }) else e

/-- The workers of the slots `ks` stand in zone 0, and the others where they stood. -/
def sendOutside (ks : List Nat) (l : List (Nat × Worker)) : List (Nat × Worker) :=
  l.map (entryOutside ks)

/-- The workers of the slots `ks` who stand in zone `i + 1`. -/
def leaving (ks : List Nat) (i : Fin 15) (l : List (Nat × Worker)) : Nat :=
  l.countP fun e => e.1 ∈ ks && e.2.location.val == i.val + 1

/-- The state with the workers of the slots `ks` outside, and each zone's occupancy lower by those who
leave it (R67). -/
def sentOutside (ks : List Nat) (s : State) : State :=
  { s with
    zones := Vector.ofFn fun i =>
      { s.zones[i] with occupancy := s.zones[i].occupancy - leaving ks i s.table.workers }
    table := { s.table with workers := sendOutside ks s.table.workers } }

@[simp] theorem entryOutside_slot (ks : List Nat) (e : Nat × Worker) :
    (entryOutside ks e).1 = e.1 := by
  unfold entryOutside
  split <;> rfl

theorem entryOutside_eq_self {ks : List Nat} {e : Nat × Worker}
    (h : e.1 ∈ ks → e.2.location = 0) : entryOutside ks e = e := by
  unfold entryOutside
  split
  · next hk => rw [← h hk]
  · rfl

theorem entryOutside_entryOutside (k : Nat) (ks : List Nat) (e : Nat × Worker) :
    entryOutside ks (entryOutside [k] e) = entryOutside (k :: ks) e := by
  by_cases hk : e.1 = k
  · by_cases hks : k ∈ ks <;> simp [entryOutside, hk, hks]
  · simp [entryOutside, hk]

@[simp] theorem sentOutside_zone (ks : List Nat) (s : State) (i : Fin 15) :
    (sentOutside ks s).zones[i] = { s.zones[i] with
      occupancy := s.zones[i].occupancy - leaving ks i s.table.workers } := by
  simp [sentOutside]

/-- A state that differs from `s` in zones and workers alone is known by these two. -/
theorem eq_sentOutside {s t : State} {ks : List Nat}
    (ht : t = { s with zones := t.zones, table := { s.table with workers := t.table.workers } })
    (hworkers : t.table.workers = sendOutside ks s.table.workers)
    (hzones : ∀ i : Fin 15, t.zones[i] = { s.zones[i] with
      occupancy := s.zones[i].occupancy - leaving ks i s.table.workers }) :
    t = sentOutside ks s := by
  have hvector : t.zones = (sentOutside ks s).zones :=
    Vector.ext fun i hi => (hzones ⟨i, hi⟩).trans (sentOutside_zone ks s ⟨i, hi⟩).symm
  rw [ht, hvector, hworkers]
  rfl

/-- Sending outside whom zone 0 already holds changes nothing. -/
theorem sentOutside_eq_self {s : State} {ks : List Nat}
    (h : ∀ e ∈ s.table.workers, e.1 ∈ ks → e.2.location = 0) : sentOutside ks s = s := by
  refine (eq_sentOutside rfl ?_ fun i => ?_).symm
  · have hentry : ∀ e ∈ s.table.workers, entryOutside ks e = e := fun e he =>
      entryOutside_eq_self (h e he)
    exact ((List.map_congr_left hentry).trans (List.map_id' _)).symm
  · have hnone : leaving ks i s.table.workers = 0 :=
      List.countP_eq_zero.2 fun e he hleaves => by
        simp only [Bool.and_eq_true, decide_eq_true_eq, beq_iff_eq] at hleaves
        simp [h e he hleaves.1] at hleaves
    rw [hnone]
    rfl

theorem sendOutside_sendOutside (k : Nat) (ks : List Nat) (l : List (Nat × Worker)) :
    sendOutside ks (sendOutside [k] l) = sendOutside (k :: ks) l := by
  rw [sendOutside, sendOutside, List.map_map]
  exact List.map_congr_left fun e _ => entryOutside_entryOutside k ks e

theorem sendOutside_sorted (ks : List Nat) {l : List (Nat × Worker)}
    (h : l.Pairwise (fun a b => a.1 < b.1)) :
    (sendOutside ks l).Pairwise (fun a b => a.1 < b.1) := by
  simpa only [sendOutside, List.pairwise_map, entryOutside_slot] using h

/-- Who leaves a zone with slot `k` first leaves it no more with the slots behind it. -/
theorem leaving_cons (k : Nat) (ks : List Nat) (i : Fin 15) (l : List (Nat × Worker)) :
    leaving [k] i l + leaving ks i (sendOutside [k] l) = leaving (k :: ks) i l := by
  induction l with
  | nil => rfl
  | cons e rest ih =>
    simp only [leaving, sendOutside, List.map_cons, List.countP_cons] at ih ⊢
    rw [← ih]
    by_cases hk : e.1 = k <;> simp [entryOutside, hk] <;> omega

/-! ### The moves -/

theorem sentOutside_sentOutside (k : Nat) (ks : List Nat) (s : State) :
    sentOutside ks (sentOutside [k] s) = sentOutside (k :: ks) s := by
  refine eq_sentOutside rfl (sendOutside_sendOutside k ks s.table.workers) fun i => ?_
  have hsum := leaving_cons k ks i s.table.workers
  rw [sentOutside_zone, sentOutside_zone, ← hsum, ← Nat.sub_sub]
  rfl

/-- A move to zone 0 of a worker who stands inside: zone 0 has no count to raise (R66). -/
theorem movedTo_zero {s : State} {k : Nat} {w : Worker}
    (hs : s.table.workers.Pairwise (fun a b => a.1 < b.1)) (hw : workerAt s k = some w)
    (hl : w.location ≠ 0) : movedTo k w 0 s = sentOutside [k] s := by
  have hlookup : lookupSlot k s.table.workers = some w := hw
  rw [movedTo, if_neg hl, modZone_zero]
  refine eq_sentOutside ((modZone_eq _ _ _).trans (by rw [modZone_table]; rfl)) ?_ fun i => ?_
  · rw [modZone_table, setWorker_table, putSlot_eq_map _ hs hlookup]
    refine List.map_congr_left fun e he => ?_
    by_cases hk : e.1 = k
    · obtain rfl : w = e.2 :=
        Option.some.inj (hlookup.symm.trans (lookupSlot_of_mem hs (hk ▸ he)))
      simp [entryOutside, hk]
    · simp [entryOutside, hk]
  · have hcount : leaving [k] i s.table.workers = if w.location.val = i.val + 1 then 1 else 0 := by
      simpa [leaving, hlookup] using
        countP_slot (slot := k) (fun v => v.location.val == i.val + 1) hs
    rw [modZone_zone, setWorker_zones, hcount]
    simp only [eq_comm (b := i.val + 1)]
    split <;> rfl

/-- One worker moved to zone 0; a slot without one, or one who stands there, changes nothing. -/
theorem moveWorker_zero {s : State} (k : Nat)
    (hs : s.table.workers.Pairwise (fun a b => a.1 < b.1)) :
    moveWorker k 0 s = sentOutside [k] s := by
  have hsolo : ∀ e ∈ s.table.workers, e.1 ∈ [k] → workerAt s k = some e.2 := fun e he hk =>
    lookupSlot_of_mem hs (List.mem_singleton.1 hk ▸ he)
  cases hw : workerAt s k with
  | none =>
    rw [moveWorker, hw, sentOutside_eq_self fun e he hk => absurd (hsolo e he hk) (by simp [hw])]
  | some w =>
    rw [moveWorker_eq 0 hw]
    by_cases hl : w.location = 0
    · rw [movedTo, if_pos hl, sentOutside_eq_self fun e he hk => ?_]
      obtain rfl : w = e.2 := Option.some.inj (hw.symm.trans (hsolo e he hk))
      exact hl
    · exact movedTo_zero hs hw hl

/-- The moves of FORGIVE, one slot after the other. -/
theorem foldl_moveWorker_zero (ks : List Nat) {s : State}
    (hs : s.table.workers.Pairwise (fun a b => a.1 < b.1)) :
    ks.foldl (fun s k => moveWorker k 0 s) s = sentOutside ks s := by
  induction ks generalizing s with
  | nil => exact (sentOutside_eq_self fun _ _ hk => absurd hk List.not_mem_nil).symm
  | cons k ks ih =>
    rw [List.foldl_cons, moveWorker_zero k hs, ih (sendOutside_sorted [k] hs),
      sentOutside_sentOutside]

/-! ### The command -/

/-- FORGIVE moves the worker of a table entry: OFF, inside, and named by no grant (R39). -/
def forgivesEntry (s : State) (e : Nat × Worker) : Bool :=
  e.2.interval.isNone && e.2.location != 0 && !grantNames s e.1

/-- The slots whose workers FORGIVE moves. -/
def movers (s : State) : List Nat := (slotsInUse s).filter (forgives s)

theorem forgives_of_mem {s : State} (hs : s.table.workers.Pairwise (fun a b => a.1 < b.1))
    {e : Nat × Worker} (he : e ∈ s.table.workers) : forgives s e.1 = forgivesEntry s e := by
  have hw : workerAt s e.1 = some e.2 := lookupSlot_of_mem hs he
  simp [forgives, forgivesEntry, hw, bne, decide_not, beq_eq_decide]

theorem mem_movers {s : State} (hs : s.table.workers.Pairwise (fun a b => a.1 < b.1))
    {e : Nat × Worker} (he : e ∈ s.table.workers) : e.1 ∈ movers s ↔ forgivesEntry s e = true := by
  have hslot : e.1 ∈ slotsInUse s := List.mem_map_of_mem he
  rw [movers, List.mem_filter, forgives_of_mem hs he]
  exact and_iff_right hslot

theorem length_movers {s : State} (hs : s.table.workers.Pairwise (fun a b => a.1 < b.1)) :
    (movers s).length = s.table.workers.countP (forgivesEntry s) := by
  rw [movers, slotsInUse, List.filter_map, List.length_map, ← List.countP_eq_length_filter]
  exact List.countP_congr fun e he => by rw [Function.comp_apply, forgives_of_mem hs he]

theorem takeForgive_of_fire {s : State} (h : fireActive s = true) :
    takeForgive s = endRequest .fireActive (some 0) none s := by
  rw [takeForgive, if_pos h]

theorem takeForgive_of_no_fire {s : State} (h : fireActive s = false)
    (hs : s.table.workers.Pairwise (fun a b => a.1 < b.1)) :
    takeForgive s = endRequest .done (some (s.table.workers.countP (forgivesEntry s))) none
      (sentOutside (movers s) s) := by
  rw [takeForgive, if_neg (by simp [h])]
  dsimp only
  rw [foldl_moveWorker_zero _ hs, ← length_movers hs]
  rfl

theorem exec_forgive (notify : Bool) (s : State) :
    exec (.forgive notify) s = .next (carryOut .forgive notify takeForgive s) := rfl

/-- Settles O33: the moves come to one update of the table, read through the entries that FORGIVE
moves. -/
theorem forgiveReturnsOffWorkersOutside : Obligations.ForgiveReturnsOffWorkersOutside := by
  intro notify s su h hs
  refine ⟨fun hfire => ?_, fun hfire => ⟨(sentOutside (movers s) s).zones, ?_, fun i => ?_⟩⟩
  · rw [exec_forgive, carryOut_ends h h (takeForgive_of_fire hfire)]
  · have hready : ReadyFor (sentOutside (movers s) s) su := h.of_eq rfl rfl rfl
    have hworkers : sendOutside (movers s) s.table.workers = s.table.workers.map fun e =>
        if forgivesEntry s e = true then (e.1, { e.2 with location := 0 }) else e :=
      List.map_congr_left fun e he => by simp only [entryOutside, mem_movers hs he]
    rw [exec_forgive, carryOut_ends h hready (takeForgive_of_no_fire hfire hs), sentOutside, hworkers]
    rfl
  · have hleaving : leaving (movers s) i s.table.workers = s.table.workers.countP fun e =>
        forgivesEntry s e && e.2.location.val == i.val + 1 :=
      List.countP_congr fun e he => by simp [mem_movers hs he]
    rw [sentOutside_zone, hleaving]
    rfl

end Sys2Proof.Machine
end

section
/-! CERTIFICATE. ZONE_SET (R73), from the two ways its take ends. -/

namespace Sys2Proof.Machine

theorem ReadyFor.modZone {s : State} {su : Setup} (h : ReadyFor s su) (z : ZoneNo) (f : Zone → Zone) :
    ReadyFor (modZone z f s) su :=
  h.of_eq (by simp) (by simp) (by simp)

/-! ### The take -/

/-- A zone's entry with the three fields that ZONE_SET gives it (R73). -/
def Zone.replaced (present : Bool) (ceiling capacity : Nat) (e : Zone) : Zone :=
  { e with present := present, ceiling := ceiling, capacity := capacity }

theorem takeZoneSet_of_unfit {zone ceiling capacity : Nat} (present : Bool)
    (h : zone = 0 ∨ 15 < zone ∨ 4095 < capacity ∨ 3 < ceiling) (s : State) :
    takeZoneSet zone present ceiling capacity s = endRequest .range none none s := by
  by_cases hgt : 15 < zone
  · rw [takeZoneSet, zoneOf_eq_none hgt]
  · obtain ⟨z, rfl⟩ : ∃ z : ZoneNo, z.val = zone := ⟨⟨zone, by omega⟩, rfl⟩
    have hunfit : z = 0 ∨ 4095 < capacity ∨ 3 < ceiling :=
      h.imp Fin.val_eq_zero_iff.1 fun hrest => hrest.resolve_left hgt
    rw [takeZoneSet, zoneOf_val]
    exact if_pos hunfit

theorem takeZoneSet_of_fits {z : ZoneNo} {ceiling capacity : Nat} (present : Bool) (hz : z ≠ 0)
    (hcap : capacity ≤ 4095) (hceil : ceiling ≤ 3) (s : State) :
    takeZoneSet z.val present ceiling capacity s =
      endRequest .done (some 0) none (modZone z (Zone.replaced present ceiling capacity) s) := by
  have hfits : ¬ (z = 0 ∨ 4095 < capacity ∨ 3 < ceiling) := by
    simp [hz, hcap, hceil]
  rw [takeZoneSet, zoneOf_val]
  exact if_neg hfits

/-! ### The command -/

theorem exec_zoneSet (notify : Bool) (zone : Nat) (present : Bool) (ceiling capacity : Nat) (s : State) :
    exec (.zoneSet notify zone present ceiling capacity) s =
      .next (carryOut (.zoneSet zone present ceiling capacity) notify
        (takeZoneSet zone present ceiling capacity) s) := rfl

theorem exec_zoneSet_of_fits {s : State} {su : Setup} {z : ZoneNo} {ceiling capacity : Nat}
    (h : ReadyFor s su) (notify present : Bool) (hz : z ≠ 0) (hcap : capacity ≤ 4095)
    (hceil : ceiling ≤ 3) :
    exec (.zoneSet notify z.val present ceiling capacity) s =
      .next (answered su notify .done (some 0) none
        (modZone z (Zone.replaced present ceiling capacity) s)) := by
  rw [exec_zoneSet, carryOut_ends h (h.modZone z _) (by
    rw [takeZoneSet_of_fits present hz hcap hceil, modZone_beginRequest])]

/-- Settles O40: parameters out of range end the take at once, and what passes is one update of the
zone's entry, made beside the request in progress. -/
theorem zoneSetReplacesTheEntry : Obligations.ZoneSetReplacesTheEntry := by
  intro notify zone present ceiling capacity s su h
  refine ⟨fun hunfit => ?range, fun hpos hle hcap hceil => ?done⟩
  case range =>
    rw [exec_zoneSet, carryOut_ends h h (takeZoneSet_of_unfit present hunfit _)]
  case done =>
    obtain ⟨z, rfl⟩ : ∃ z : ZoneNo, z.val = zone := ⟨⟨zone, by omega⟩, rfl⟩
    have hz : z ≠ 0 := Fin.pos_iff_ne_zero.1 hpos
    refine ⟨(modZone z (Zone.replaced present ceiling capacity) s).zones, ?_, modZone_zone z _ s⟩
    rw [exec_zoneSet_of_fits h notify present hz hcap hceil, ← modZone_eq]

end Sys2Proof.Machine
end

section
/-! CERTIFICATE. How a step takes its command, and the laws at reset (11.2). -/

namespace Sys2Proof.Machine

/-- Settles O1: both halves are the two arms of `step`. -/
theorem stepRunsFrontCommand : Obligations.StepRunsFrontCommand := by
  refine ⟨fun _ _ _ => rfl, fun s h => ?_⟩
  rw [step, h]

/-- A door at its reset values obeys its laws in CLEARING with no fire and no rehearsal. -/
theorem reset_doorsLawful : DoorsLawful State.reset := by
  unfold DoorsLawful DoorLawful
  decide

/-- No request is in progress at reset, and so no check runs. -/
theorem reset_checksMarked : ChecksMarked State.reset := fun d hd => by
  simp [checksDoor, State.reset, Link.reset] at hd

/-- Settles O3: each law is read off the reset values, block by block. -/
theorem resetStateIsLawful : Obligations.ResetStateIsLawful := by
  refine ⟨rfl, ?places, reset_doorsLawful, reset_checksMarked, ?contacts, ?config, fun _ => ⟨rfl, rfl⟩,
    ?time, ?table, ?zones⟩
  case places => exact ⟨by decide, by decide, fun _ => by decide⟩
  case contacts => unfold ContactsFollow; decide
  case config => exact ⟨fun h => Bool.noConfusion h, fun h => Bool.noConfusion h⟩
  case time => unfold TimeInRange; decide
  case table => exact ⟨.nil, .nil, fun _ _ => by simp [State.reset, WorkerTable.reset]⟩
  case zones => exact ⟨.nil, by unfold located; decide⟩

end Sys2Proof.Machine
end

section
/-! SUPPORT. What a link operation does to the holding queue, to V and to the event flags, said once for
each: V stays, the queue gets no longer, and in CLEARING no flag moves (R170, R172, R183). -/

namespace Sys2Proof.Machine

/-- A link operation that places no record. -/
structure LinkStep (s t : State) : Prop extends LinkOnly s t where
  reserved : t.link.reserved = s.link.reserved
  queue : t.link.queue.length ≤ s.link.queue.length
  events : s.regs.run = .clearing → t.regs.events = s.regs.events
  flags : ∀ e : Event, flagSet e s = true → flagSet e t = true

theorem LinkStep.refl (s : State) : LinkStep s s := ⟨.refl s, rfl, le_rfl, fun _ => rfl, fun _ h => h⟩

/-- A link operation leaves CLEARING to CLEARING alone. -/
theorem LinkOnly.clearing_iff {s t : State} (h : LinkOnly s t) :
    t.regs.run = .clearing ↔ s.regs.run = .clearing := by
  rcases h.run with e | ⟨a, b⟩
  · rw [e]
  · simp [a, b]

theorem LinkStep.trans {s t u : State} (h : LinkStep s t) (k : LinkStep t u) : LinkStep s u where
  toLinkOnly := h.toLinkOnly.trans k.toLinkOnly
  reserved := k.reserved.trans h.reserved
  queue := k.queue.trans h.queue
  events := fun hc => (k.events (h.clearing_iff.2 hc)).trans (h.events hc)
  flags := fun e he => k.flags e (h.flags e he)

/-- A link operation that leaves the queue, V and the registers as they were. -/
theorem LinkOnly.linkStep {s t : State} (h : LinkOnly s t)
    (hreserved : t.link.reserved = s.link.reserved) (hqueue : t.link.queue = s.link.queue)
    (hregs : t.regs = s.regs) : LinkStep s t :=
  ⟨h, hreserved, by rw [hqueue], fun _ => by rw [hregs], fun e he => by rwa [flagSet, hregs]⟩

/-! ### Events and accesses -/

@[simp] theorem raise_clearing {s : State} (h : s.regs.run = .clearing) (e : Event) :
    raise e s = s := if_pos h

/-- A flag that is set stays set when a cause is raised. -/
theorem flagSet_raise_of_flagSet {s : State} {e : Event} (f : Event) (h : flagSet e s = true) :
    flagSet e (raise f s) = true := by
  unfold raise
  split
  · exact h
  · simp only [flagSet, BitVec.getLsbD_or]
    exact Bool.or_eq_true_iff.2 (.inl h)

theorem raise_linkStep (e : Event) (s : State) : LinkStep s (raise e s) :=
  ⟨raise_linkOnly e s, by simp, by simp, fun h => by simp [h], fun _ => flagSet_raise_of_flagSet e⟩

theorem linkFail_linkStep (s : State) : LinkStep s (linkFail s) := by
  refine ⟨linkFail_linkOnly s, by simp, by simp, fun h => by simp [linkFail, h], fun e he => ?_⟩
  have := flagSet_raise_of_flagSet .linkError he
  unfold linkFail
  dsimp only
  split
  · exact this
  · exact this

theorem linkStep_of_answers (s : State) (l : List Bool) : LinkStep s { s with linkAnswers := l } :=
  { LinkStep.refl s with }

theorem linkStep_of_ram (s : State) (base : Word) (off : Nat) (b : List Byte) :
    LinkStep s { s with ram := writeBytes s.ram base off b } :=
  (linkOnly_of_ram s base off b).linkStep rfl rfl rfl

theorem linkAccess_linkStep (s : State) : LinkStep s (linkAccess s).2 := by
  unfold linkAccess
  split
  · exact .refl s
  · exact linkStep_of_answers s _
  · exact (linkStep_of_answers s _).trans (linkFail_linkStep _)

theorem linkWrite_linkStep (base : Word) (off : Nat) (b : List Byte) (s : State) :
    LinkStep s (linkWrite base off b s).2 := by
  have h := linkAccess_linkStep s
  unfold linkWrite
  rcases e : linkAccess s with ⟨ok, s1⟩
  rw [e] at h
  cases ok
  · exact h
  · exact h.trans (linkStep_of_ram s1 base off b)

/-- The state that a write access leaves, whether it was answered well or not. -/
theorem linkStep_of_linkWrite {base : Word} {off : Nat} {b : List Byte} {s t : State} {ok : Bool}
    (h : linkWrite base off b s = (ok, t)) : LinkStep s t := by
  have := linkWrite_linkStep base off b s
  rwa [h] at this

/-- The state that an access leaves, whether it was answered well or not. -/
theorem linkStep_of_linkAccess {s t : State} {ok : Bool} (h : linkAccess s = (ok, t)) :
    LinkStep s t := by
  have := linkAccess_linkStep s
  rwa [h] at this

/-! ### Returns -/

theorem settleReturn_linkStep (s : State) : LinkStep s (settleReturn s) := by
  unfold settleReturn
  split
  · next r su _ _ =>
    dsimp only
    split
    · next h => exact linkStep_of_linkWrite h
    · next s1 h1 =>
      have hrest := (linkStep_of_linkWrite h1).trans (linkStep_of_ram s1 su.workList
        (64 * s.link.workPos + 8) r.bytes.2)
      split
      · next h => exact hrest.trans (linkStep_of_linkWrite h)
      · next s3 h =>
        have hret := (hrest.trans (linkStep_of_linkWrite h)).trans
          ((linkOnly_of_link (s := s3)
            { s3.link with ret := none, workPos := nextWorkPos su s3.link.workPos } rfl rfl rfl
            (.inl rfl)).linkStep rfl rfl rfl)
        split
        · exact hret.trans (raise_linkStep .workDone _)
        · exact hret
  · exact .refl s

theorem pendReturn_linkStep (st : Status) (count resume : Option Nat) (s : State) :
    LinkStep s (pendReturn st count resume s) := by
  have h := pendReturn_linkOnly st count resume s
  unfold pendReturn at h ⊢
  split
  · exact .refl s
  · next q e =>
    rw [e] at h
    exact h.linkStep rfl rfl rfl

theorem endRequest_linkStep (st : Status) (count resume : Option Nat) (s : State) :
    LinkStep s (endRequest st count resume s) := by
  unfold endRequest
  dsimp only
  split
  · exact (pendReturn_linkStep st count resume s).trans (settleReturn_linkStep _)
  · exact pendReturn_linkStep st count resume s

/-! ### The journal -/

theorem testEntries_linkStep (su : Setup) :
    ∀ (l : List Nat) (s : State), LinkStep s (testEntries su l s).2
  | [], s => .refl s
  | k :: rest, s => by
    unfold testEntries
    split
    · next h => exact linkStep_of_linkAccess h
    · next s1 h =>
      have ih := testEntries_linkStep su rest s1
      have h1 := (linkStep_of_linkAccess h).trans ih
      split
      · next e => rw [e] at h1; split <;> exact h1
      · exact h1

theorem writeEntries_linkStep (su : Setup) (r : Record) :
    ∀ (l : List Nat) (s : State), LinkStep s (writeEntries su r l s).2
  | [], s => .refl s
  | k :: rest, s => by
    unfold writeEntries
    dsimp only
    split
    · next h => exact linkStep_of_linkWrite h
    · next s1 h1 =>
      split
      · next h2 => exact (linkStep_of_linkWrite h1).trans (linkStep_of_linkWrite h2)
      · next s2 h2 =>
        have hmarked := (linkOnly_of_link (s := s2) { s2.link with contWritten := true } rfl rfl rfl
          (.inl rfl)).linkStep rfl rfl rfl
        exact (((linkStep_of_linkWrite h1).trans (linkStep_of_linkWrite h2)).trans hmarked).trans
          (writeEntries_linkStep su r rest _)

theorem leaveQueue_linkStep (su : Setup) (n : Nat) (s : State) : LinkStep s (leaveQueue su n s) := by
  refine ⟨leaveQueue_linkOnly su n s, ?_, ?_, fun h => ?_, fun e he => ?_⟩
  · unfold leaveQueue; dsimp only; rw [raiseIf_link]
  · unfold leaveQueue; dsimp only; rw [raiseIf_link]; simp
  · unfold leaveQueue; dsimp only; split
    · rw [raise_clearing]; exact h
    · rfl
  · unfold leaveQueue; dsimp only; split
    · exact flagSet_raise_of_flagSet .journal he
    · exact he

theorem tryWriteHead_linkStep (s : State) : LinkStep s (tryWriteHead s).2 := by
  unfold tryWriteHead
  split
  · next r _ su _ _ =>
    dsimp only
    have htest := testEntries_linkStep su
      (if (r.body.entries == 2 && !s.link.contWritten) = true then [0, 1] else [0]) s
    split
    · next s1 e =>
      rw [e] at htest
      have hwrite := htest.trans
        (writeEntries_linkStep su r (if (r.body.entries == 2) = true then [1, 0] else [0]) s1)
      split
      · next s2 e2 => rw [e2] at hwrite; exact hwrite.trans (leaveQueue_linkStep su _ s2)
      · exact hwrite
    · exact htest
  · exact .refl s

/-- The state that a write of the head record leaves, however the write ends. -/
theorem linkStep_of_tryWriteHead {s t : State} {w : WriteEnd} (h : tryWriteHead s = (w, t)) :
    LinkStep s t := by
  have := tryWriteHead_linkStep s
  rwa [h] at this

theorem writeHeads_linkStep : ∀ (n : Nat) (s : State), LinkStep s (writeHeads n s)
  | 0, s => .refl s
  | n + 1, s => by
    unfold writeHeads
    split
    · exact .refl s
    · split
      · next s1 h => exact (linkStep_of_tryWriteHead h).trans (writeHeads_linkStep n s1)
      · next h => exact linkStep_of_tryWriteHead h

theorem beginWrites_linkStep (s : State) : LinkStep s (beginWrites s) := by
  unfold beginWrites
  split
  · split
    · next s1 h => exact (linkStep_of_tryWriteHead h).trans (writeHeads_linkStep 1 s1)
    · next s1 h => exact (linkStep_of_tryWriteHead h).trans (raise_linkStep .holding s1)
    · next h => exact linkStep_of_tryWriteHead h
  · exact raise_linkStep .holding s

theorem writeMuster_linkStep (area : Word) :
    ∀ (l : List MusterEntry) (i : Nat) (s : State), LinkStep s (writeMuster area i l s).2.2
  | [], _, s => .refl s
  | e :: rest, i, s => by
    unfold writeMuster
    split
    · next h => exact linkStep_of_linkWrite h
    · next s1 h => exact (linkStep_of_linkWrite h).trans (writeMuster_linkStep area rest (i + 1) s1)

/-! ### Placing records (R170) -/

/-- Placing a record: a reserved place passes from V to U, and a free one is taken. -/
theorem placeRecord_places (reserved : Bool) (t : Stamp) (b : RecordBody) (s : State) :
    (placeRecord reserved t b s).link.queue.length = s.link.queue.length + 1 ∧
      (placeRecord reserved t b s).link.reserved =
        if reserved then s.link.reserved - 1 else s.link.reserved := by
  simp [placeRecord_link]

theorem placeRecord_flags (reserved : Bool) (t : Stamp) (b : RecordBody) {s : State} {e : Event}
    (h : flagSet e s = true) : flagSet e (placeRecord reserved t b s) = true := by
  have hset : ∀ (u : State) (c : Prop) [Decidable c], flagSet e u = true →
      flagSet e (if c then raise .holdFull u else u) = true := by
    intro u c _ hu
    split
    · exact flagSet_raise_of_flagSet .holdFull hu
    · exact hu
  exact hset _ _ h

/-- A gap record goes ahead only where it leaves a place for the record behind it. -/
theorem placeGap_places (reserved : Bool) (s : State) :
    (placeGap reserved s).link.reserved = s.link.reserved ∧
      ((placeGap reserved s).link.queue.length = s.link.queue.length ∨
        ((placeGap reserved s).link.queue.length = s.link.queue.length + 1 ∧
          (if reserved then 1 else 2) ≤ freePlaces s)) := by
  unfold placeGap
  generalize (if reserved = true then 1 else 2) = n
  split
  · next h =>
    have hp := placeRecord_places false s.clock.now (.holdGap s.link.holdGap s.link.lost)
      { s with link := { s.link with holdGap := 0, lost := 0 } }
    exact ⟨by simpa using hp.2, .inr ⟨by simpa using hp.1, h.2⟩⟩
  · exact ⟨rfl, .inl rfl⟩

/-- Handing over a record: U and V with the place it takes never pass Q, and V falls by the place that
was reserved. -/
theorem handOver_places (reserved : Bool) (t : Stamp) (b : RecordBody) {s : State}
    (hrun : s.regs.run ≠ .clearing) (hV : reserved = true → s.link.reserved ≠ 0) :
    (handOver reserved t b s).link.reserved =
        (if reserved then s.link.reserved - 1 else s.link.reserved) ∧
      (s.link.queue.length + s.link.reserved ≤ queueCap s →
        (handOver reserved t b s).link.queue.length + (handOver reserved t b s).link.reserved ≤
          queueCap s) := by
  unfold handOver
  rw [if_neg hrun]
  split
  · next h => exact ⟨by simp [h.1], fun hq => by simpa [h.1] using hq⟩
  · next h =>
    obtain ⟨gapV, gapU⟩ := placeGap_places reserved s
    obtain ⟨recU, recV⟩ := placeRecord_places reserved t b (placeGap reserved s)
    rw [gapV] at recV
    have placed : ∀ u : State, LinkStep (placeRecord reserved t b (placeGap reserved s)) u →
        u.link.reserved = (if reserved then s.link.reserved - 1 else s.link.reserved) ∧
        (s.link.queue.length + s.link.reserved ≤ queueCap s →
          u.link.queue.length + u.link.reserved ≤ queueCap s) := by
      intro u hu
      have hq := hu.queue
      have hr := hu.reserved
      refine ⟨hr.trans recV, fun hcap => ?_⟩
      unfold freePlaces at h gapU
      cases reserved
      · simp only [true_and, Bool.false_eq_true, if_false] at *
        omega
      · have := hV rfl
        simp only [if_true] at *
        omega
    dsimp only
    split
    · exact placed _ (beginWrites_linkStep _)
    · exact placed _ (.refl _)

/-- Handing over a record clears no flag. -/
theorem handOver_flags (reserved : Bool) (t : Stamp) (b : RecordBody) {s : State} {e : Event}
    (h : flagSet e s = true) : flagSet e (handOver reserved t b s) = true := by
  have hgap : flagSet e (placeGap reserved s) = true := by
    unfold placeGap
    generalize (if reserved = true then 1 else 2) = n
    split
    · exact placeRecord_flags _ _ _ h
    · exact h
  unfold handOver
  split
  · exact h
  split
  · exact h
  dsimp only
  split
  · exact (beginWrites_linkStep _).flags e (placeRecord_flags _ _ _ hgap)
  · exact placeRecord_flags _ _ _ hgap

@[simp] theorem handOver_clearing {s : State} (h : s.regs.run = .clearing) (reserved : Bool) (t : Stamp)
    (b : RecordBody) : handOver reserved t b s = s := if_pos h

end Sys2Proof.Machine
end

section
/-! SUPPORT. The relations that the operations of a step obey. `SideStep s t` says what an operation that
sets no mode, no fire state and no run state of its own makes of everything beside the doors and the
holding queue's places; `WorkStep s t` says in addition that the doors stand and that the places hold. -/

namespace Sys2Proof.Machine

/-- `t` is what an operation may leave of `s` beside the doors and the places reserved. -/
structure SideStep (s t : State) : Prop where
  pending : t.pending = s.pending
  mode : t.mode = s.mode
  fireState : t.fire.state = s.fire.state
  configValid : t.regs.configValid = s.regs.configValid
  run : t.regs.run = s.regs.run ∨ (s.regs.run = .running ∧ t.regs.run = .isolated)
  valid : t.clock.valid = s.clock.valid
  rho : t.clock.rho = s.clock.rho
  inRange : TimeInRange s → TimeInRange t
  passed : s.bells.passed ≤ t.bells.passed
  capacity : t.table.capacity = s.table.capacity
  setup : t.link.setup = s.link.setup
  quiet : ClearingQuiet s → ClearingQuiet t
  checks : ∀ d : DoorNo, checksDoor t d = true → checksDoor s d = true
  ram : RamCanonical s → RamCanonical t
  table : TableIndexed s → TableIndexed t
  zones : ZonesCounted s → ZonesCounted t

/-- `t` is what an operation that sets no door may leave of `s`. -/
structure WorkStep (s t : State) : Prop extends SideStep s t where
  doors : t.doors = s.doors
  reserved : t.link.reserved = s.link.reserved
  places : s.link.queue.length + s.link.reserved ≤ queueCap s →
    t.link.queue.length + t.link.reserved ≤ queueCap t

theorem SideStep.refl (s : State) : SideStep s s :=
  ⟨rfl, rfl, rfl, rfl, .inl rfl, rfl, rfl, id, le_rfl, rfl, rfl, id, fun _ => id, id, id, id⟩

theorem WorkStep.refl (s : State) : WorkStep s s := ⟨.refl s, rfl, rfl, id⟩

theorem SideStep.trans {s t u : State} (h : SideStep s t) (k : SideStep t u) : SideStep s u where
  pending := k.pending.trans h.pending
  mode := k.mode.trans h.mode
  fireState := k.fireState.trans h.fireState
  configValid := k.configValid.trans h.configValid
  run := by
    rcases k.run with e | ⟨a, b⟩
    · rw [e]; exact h.run
    · rcases h.run with e | ⟨-, d⟩
      · exact .inr ⟨e ▸ a, b⟩
      · rw [d] at a; cases a
  valid := k.valid.trans h.valid
  rho := k.rho.trans h.rho
  inRange := k.inRange ∘ h.inRange
  passed := h.passed.trans k.passed
  capacity := k.capacity.trans h.capacity
  setup := k.setup.trans h.setup
  quiet := k.quiet ∘ h.quiet
  checks := fun d hd => h.checks d (k.checks d hd)
  ram := k.ram ∘ h.ram
  table := k.table ∘ h.table
  zones := k.zones ∘ h.zones

theorem WorkStep.trans {s t u : State} (h : WorkStep s t) (k : WorkStep t u) : WorkStep s u where
  toSideStep := h.toSideStep.trans k.toSideStep
  doors := k.doors.trans h.doors
  reserved := k.reserved.trans h.reserved
  places := k.places ∘ h.places

/-! ### What follows from the fields -/

theorem SideStep.gatesRun {s t : State} (h : SideStep s t) : gatesRun t = gatesRun s := by
  rcases h.run with e | ⟨a, b⟩
  · simp [Machine.gatesRun, e]
  · simp [Machine.gatesRun, a, b]

theorem SideStep.fireActive {s t : State} (h : SideStep s t) : fireActive t = fireActive s := by
  simp [Machine.fireActive, h.fireState]

theorem SideStep.clearing_iff {s t : State} (h : SideStep s t) :
    t.regs.run = .clearing ↔ s.regs.run = .clearing := by
  rcases h.run with e | ⟨a, b⟩
  · rw [e]
  · simp [a, b]

theorem WorkStep.grantCount {s t : State} (h : WorkStep s t) : grantCount t = grantCount s := by
  simp [Machine.grantCount, h.doors]

theorem SideStep.queueCap {s t : State} (h : SideStep s t) : queueCap t = queueCap s := by
  simp [Machine.queueCap, h.capacity]

/-- Plant time's range depends on plant time and the rate term alone. -/
theorem timeInRange_of_eq {s t : State} (hn : t.clock.now = s.clock.now) (hr : t.clock.rho = s.clock.rho)
    (h : TimeInRange s) : TimeInRange t := by
  unfold TimeInRange at *
  rwa [hn, hr]

theorem tableIndexed_of_eq {s t : State} (h : t.table = s.table) (hs : TableIndexed s) :
    TableIndexed t := by
  unfold TableIndexed at *
  rwa [h]

theorem located_of_eq {s t : State} (h : t.table.workers = s.table.workers) (z : ZoneNo) :
    located t z = located s z := by
  simp only [located, h]

/-- The counts of the zones depend on who is located where and on the occupancies alone. -/
theorem zonesCounted_of_eq {s t : State} (hw : t.table.workers = s.table.workers)
    (hz : ∀ i : Fin 15, t.zones[i].occupancy = s.zones[i].occupancy) (h : ZonesCounted s) :
    ZonesCounted t :=
  ⟨hw ▸ h.1, fun i => by rw [hz, located_of_eq hw]; exact h.2 i⟩

theorem checksDoor_of_eq {s t : State} (h : t.link.request = s.link.request) (d : DoorNo) :
    checksDoor t d = checksDoor s d := by
  simp only [checksDoor, h]

/-! ### Ways to a work step -/

/-- A link operation that places no record is a work step. -/
theorem LinkStep.workStep {s t : State} (h : LinkStep s t) : WorkStep s t where
  pending := h.pending
  doors := h.doors
  mode := h.mode
  fireState := by rw [h.fire]
  configValid := h.configValid
  run := h.run
  valid := by rw [h.clock]
  rho := by rw [h.clock]
  inRange := timeInRange_of_eq (by rw [h.clock]) (by rw [h.clock])
  passed := by rw [h.bells]
  capacity := by rw [h.table]
  setup := h.setup
  reserved := h.reserved
  places := fun hq => by
    have := h.queue
    rw [h.queueCap, h.reserved]
    omega
  quiet := fun hq hc => by
    have hs := h.clearing_iff.1 hc
    obtain ⟨hempty, hevents⟩ := hq hs
    exact ⟨List.length_eq_zero_iff.1 (by simpa [hempty] using h.queue), (h.events hs).trans hevents⟩
  checks := h.checksDoor
  ram := h.ram
  table := tableIndexed_of_eq h.table
  zones := zonesCounted_of_eq (by rw [h.table]) fun i => by rw [h.zones]

/-- A record handed over, in whichever place, is a step beside the doors (R170, R171). -/
theorem handOver_sideStep (reserved : Bool) (t : Stamp) (b : RecordBody) (s : State) :
    SideStep s (handOver reserved t b s) := by
  by_cases hrun : s.regs.run = .clearing
  · rw [handOver_clearing hrun]
    exact .refl s
  · have h := handOver_linkOnly reserved t b s
    exact
      { pending := h.pending, mode := h.mode, fireState := by rw [h.fire],
        configValid := h.configValid, run := h.run, valid := by rw [h.clock], rho := by rw [h.clock],
        inRange := timeInRange_of_eq (by rw [h.clock]) (by rw [h.clock]), passed := by rw [h.bells],
        capacity := by rw [h.table], setup := h.setup,
        quiet := fun _ hc => absurd (h.clearing_iff.1 hc) hrun, checks := h.checksDoor, ram := h.ram,
        table := tableIndexed_of_eq h.table,
        zones := zonesCounted_of_eq (by rw [h.table]) fun i => by rw [h.zones] }

/-- A record handed over in a free place is a work step: it takes the place, or it is lost. -/
theorem handOver_workStep (t : Stamp) (b : RecordBody) (s : State) :
    WorkStep s (handOver false t b s) := by
  by_cases hrun : s.regs.run = .clearing
  · rw [handOver_clearing hrun]
    exact .refl s
  · have h := handOver_linkOnly false t b s
    obtain ⟨hV, hU⟩ := handOver_places false t b hrun (by simp)
    exact
      { handOver_sideStep false t b s with
        doors := h.doors, reserved := hV, places := fun hq => by rw [h.queueCap]; exact hU hq }

theorem report_workStep (b : RecordBody) (s : State) : WorkStep s (report b s) :=
  handOver_workStep s.clock.now b s

theorem raise_workStep (e : Event) (s : State) : WorkStep s (raise e s) :=
  (raise_linkStep e s).workStep

theorem endRequest_workStep (st : Status) (count resume : Option Nat) (s : State) :
    WorkStep s (endRequest st count resume s) :=
  (endRequest_linkStep st count resume s).workStep

/-- An update of the clock that keeps CLOCK_VALID, ρ and the range of plant time. -/
theorem workStep_of_clock {s : State} (c : Clock) (hvalid : c.valid = s.clock.valid)
    (hrho : c.rho = s.clock.rho) (hnow : TimeInRange s → TimeInRange { s with clock := c }) :
    WorkStep s { s with clock := c } :=
  { WorkStep.refl s with valid := hvalid, rho := hrho, inRange := hnow }

/-- An update of the calendar. -/
theorem workStep_of_cal (s : State) (c : Calendar) : WorkStep s { s with cal := c } :=
  { WorkStep.refl s with }

/-- An update of the bell scheduler that moves H to no earlier time. -/
theorem workStep_of_bells {s : State} (b : Bells) (h : s.bells.passed ≤ b.passed) :
    WorkStep s { s with bells := b } :=
  { WorkStep.refl s with passed := h }

/-- An update of the fire unit that keeps the fire state. -/
theorem workStep_of_fire {s : State} (f : FireUnit) (h : f.state = s.fire.state) :
    WorkStep s { s with fire := f } :=
  { WorkStep.refl s with fireState := h }

/-- An update of the lines. -/
theorem workStep_of_lines (s : State) (l : Vector Line 24) : WorkStep s { s with lines := l } :=
  { WorkStep.refl s with }

/-- An update of the link controller that keeps the setup values, the queue and V, and begins no check. -/
theorem workStep_of_link {s : State} (l : Link) (hsetup : l.setup = s.link.setup)
    (hqueue : l.queue = s.link.queue) (hreserved : l.reserved = s.link.reserved)
    (hchecks : ∀ d : DoorNo, checksDoor { s with link := l } d = true → checksDoor s d = true) :
    WorkStep s { s with link := l } :=
  { WorkStep.refl s with
    setup := hsetup
    reserved := hreserved
    places := fun h => by rw [hqueue, hreserved]; exact h
    quiet := fun h hc => ⟨hqueue.trans (h hc).1, (h hc).2⟩
    checks := hchecks }

/-- An update of the link controller that keeps the setup values, the queue, V and the request. -/
theorem workStep_of_link_request {s : State} (l : Link) (hsetup : l.setup = s.link.setup)
    (hqueue : l.queue = s.link.queue) (hreserved : l.reserved = s.link.reserved)
    (hrequest : l.request = s.link.request) : WorkStep s { s with link := l } :=
  workStep_of_link l hsetup hqueue hreserved fun d hd => (checksDoor_of_eq hrequest d).symm.trans hd

/-- An update of one zone that leaves its occupancy. -/
theorem modZone_workStep (z : ZoneNo) (f : Zone → Zone) (hf : ∀ e, (f e).occupancy = e.occupancy)
    (s : State) : WorkStep s (modZone z f s) := by
  have hzones : ZonesCounted s → ZonesCounted (modZone z f s) :=
    zonesCounted_of_eq (by simp) fun i => by
      rw [modZone_zone]
      split
      · exact hf _
      · rfl
  rw [modZone_eq] at hzones ⊢
  exact { WorkStep.refl s with zones := hzones }

theorem modLine_workStep (l : LineNo) (f : Line → Line) (s : State) : WorkStep s (modLine l f s) :=
  workStep_of_lines s _

theorem modCircuit_workStep (c : CircuitNo) (f : Circuit → Circuit) (s : State) :
    WorkStep s (modCircuit c f s) :=
  workStep_of_bells _ le_rfl

theorem mapCircuits_workStep (f : Circuit → Circuit) (s : State) : WorkStep s (mapCircuits f s) :=
  workStep_of_bells _ le_rfl

/-- A list of work steps, one after the other. -/
theorem foldl_workStep {α : Type} (f : State → α → State) (hf : ∀ s a, WorkStep s (f s a)) :
    ∀ (l : List α) (s : State), WorkStep s (l.foldl f s)
  | [], s => .refl s
  | a :: rest, s => (hf s a).trans (foldl_workStep f hf rest (f s a))

theorem forCircuits_workStep (mask : BitVec 8) (f : Circuit → Circuit) (s : State) :
    WorkStep s (forCircuits mask f s) :=
  foldl_workStep _ (fun s c => by
    split
    · exact modCircuit_workStep c f s
    · exact .refl s) allCircuits s

/-! ### The worker table -/

/-- The slots of a list whose entries are changed in place. -/
theorem pairwise_map_snd {l : List (Nat × Worker)} (f : Nat × Worker → Worker)
    (h : l.Pairwise (fun a b => a.1 < b.1)) :
    (l.map fun e => (e.1, f e)).Pairwise (fun a b => a.1 < b.1) := by
  simpa [List.pairwise_map] using h

/-- Every worker record rewritten in place, each with its badge and its location. -/
theorem mapWorkers_workStep {s : State} (f : Nat × Worker → Worker)
    (hf : ∀ e ∈ s.table.workers, (f e).badge = e.2.badge ∧ (f e).location = e.2.location) :
    WorkStep s (setWorkers s (s.table.workers.map fun e => (e.1, f e))) := by
  refine { WorkStep.refl s with table := fun h => ?table, zones := fun h => ?zones }
  case table =>
    obtain ⟨hworkers, hindex, hexact⟩ := h
    refine ⟨pairwise_map_snd f hworkers, hindex, fun badge slot => (hexact badge slot).trans ?_⟩
    simp only [setWorkers, List.mem_map, Prod.exists, Prod.mk.injEq]
    constructor
    · rintro ⟨w, hw, rfl⟩
      exact ⟨_, ⟨slot, w, hw, rfl, rfl⟩, (hf _ hw).1⟩
    · rintro ⟨_, ⟨k, w, hw, rfl, rfl⟩, rfl⟩
      exact ⟨w, hw, (hf _ hw).1.symm⟩
  case zones =>
    refine ⟨pairwise_map_snd f h.1, fun i => (h.2 i).trans ?_⟩
    simp only [located, setWorkers, List.countP_map]
    exact List.countP_congr fun e he => by simp [(hf e he).2]

/-- In a table in slot order, one record written is the table rewritten in place at that slot. -/
theorem setWorker_eq_map {s : State} {slot : Nat} {w : Worker} (v : Worker)
    (hs : s.table.workers.Pairwise (fun a b => a.1 < b.1)) (hw : workerAt s slot = some w) :
    setWorker slot v s = setWorkers s (s.table.workers.map fun e =>
      (e.1, if e.1 = slot then v else e.2)) := by
  unfold setWorker
  rw [putSlot_eq_map v hs hw]
  congr 1
  refine List.map_congr_left fun e _ => ?_
  split
  · next h => rw [h]
  · rfl

/-- A worker record in use rewritten, with its badge and its location. -/
theorem setWorker_workStep {s : State} {slot : Nat} {w v : Worker} (hw : workerAt s slot = some w)
    (hb : v.badge = w.badge) (hl : v.location = w.location) : WorkStep s (setWorker slot v s) := by
  have rewritten (hs : s.table.workers.Pairwise (fun a b => a.1 < b.1)) :
      WorkStep s (setWorker slot v s) := by
    rw [setWorker_eq_map v hs hw]
    refine mapWorkers_workStep _ fun e he => ?_
    split
    · next h =>
      have : e.2 = w := Option.some.inj ((lookupSlot_of_mem hs (h ▸ he)).symm.trans hw)
      rw [this]
      exact ⟨hb, hl⟩
    · exact ⟨rfl, rfl⟩
  exact { WorkStep.refl s with
    table := fun h => (rewritten h.1).table h
    zones := fun h => (rewritten h.1).zones h }

end Sys2Proof.Machine
end

section
/-! SUPPORT. The worker table's updates as work steps: an enrolment, an amendment, a move and the freeing
of a slot keep the index exact and the counts of the zones (R27, R30, R67). -/

namespace Sys2Proof.Machine

/-! ### The list of in-use slots -/

/-- What a list in slot order holds after a slot has been put. -/
theorem mem_putSlot_iff {slot : Nat} {w : Worker} {e : Nat × Worker} {l : List (Nat × Worker)}
    (hs : l.Pairwise (fun a b => a.1 < b.1)) :
    e ∈ putSlot slot w l ↔ e = (slot, w) ∨ (e ∈ l ∧ e.1 ≠ slot) := by
  have hput := putSlot_sorted slot w hs
  have entries (k : Nat) (v : Worker) :
      (k, v) ∈ putSlot slot w l ↔ lookupSlot k (putSlot slot w l) = some v :=
    ⟨lookupSlot_of_mem hput, mem_of_lookupSlot⟩
  obtain ⟨k, v⟩ := e
  rw [entries]
  by_cases hk : k = slot
  · subst hk
    simp [eq_comm]
  · rw [lookupSlot_putSlot_other hk]
    simpa [hk] using ⟨mem_of_lookupSlot, lookupSlot_of_mem hs⟩

theorem mem_dropSlot {slot : Nat} {e : Nat × Worker} {l : List (Nat × Worker)} :
    e ∈ dropSlot slot l ↔ e ∈ l ∧ e.1 ≠ slot := by
  simp [dropSlot]

/-- How many workers pass a test after a slot has been put. -/
theorem countP_putSlot (q : Worker → Bool) (slot : Nat) (v : Worker) :
    ∀ {l : List (Nat × Worker)}, l.Pairwise (fun a b => a.1 < b.1) →
      (putSlot slot v l).countP (fun e => q e.2) + (lookupSlot slot l).elim 0 (fun w => bit (q w)) =
        l.countP (fun e => q e.2) + bit (q v)
  | [], _ => by cases h : q v <;> simp [putSlot, lookupSlot, bit, h]
  | (k, u) :: rest, hs => by
    rw [List.pairwise_cons] at hs
    by_cases hk : slot = k
    · cases h : q v <;> cases h' : q u <;> simp [putSlot, lookupSlot, hk, bit, h, h']
    · by_cases hlt : slot < k
      · have hnone : lookupSlot slot rest = none :=
          lookupSlot_eq_none.2 fun e he => (hlt.trans (hs.1 e he)).ne'
        cases h : q v <;> simp [putSlot, lookupSlot, hk, hlt, hnone, bit, h]
      · have ih := countP_putSlot q slot v hs.2
        simp only [putSlot, lookupSlot, hk, hlt, if_false, List.countP_cons]
        omega

/-- How many workers pass a test after a slot has been freed. -/
theorem countP_dropSlot (q : Worker → Bool) (slot : Nat) :
    ∀ {l : List (Nat × Worker)}, l.Pairwise (fun a b => a.1 < b.1) →
      (dropSlot slot l).countP (fun e => q e.2) + (lookupSlot slot l).elim 0 (fun w => bit (q w)) =
        l.countP (fun e => q e.2)
  | [], _ => rfl
  | (k, u) :: rest, hs => by
    rw [List.pairwise_cons] at hs
    have ih := countP_dropSlot q slot hs.2
    by_cases hk : slot = k
    · have hnone : lookupSlot slot rest = none :=
        lookupSlot_eq_none.2 fun e he => (hk ▸ hs.1 e he).ne'
      rw [hnone] at ih
      simp only [dropSlot, List.filter_cons, hk, bne_self_eq_false, Bool.false_eq_true, if_false,
        lookupSlot, if_true, List.countP_cons, Option.elim] at ih ⊢
      cases h : q u <;> simp [bit] <;> omega
    · have hkeep : (k != slot) = true := by simpa using Ne.symm hk
      simp only [dropSlot, List.filter_cons, hkeep, if_true, lookupSlot, hk, if_false,
        List.countP_cons] at ih ⊢
      omega

/-! ### The index -/

/-- The badge of the worker of a slot stands in the index with that slot. -/
theorem TableIndexed.badge_mem {s : State} (h : TableIndexed s) {slot : Nat} {w : Worker}
    (hw : workerAt s slot = some w) : (w.badge, slot) ∈ s.table.index :=
  (h.2.2 _ _).2 ⟨w, mem_of_lookupSlot hw, rfl⟩

/-- In an index in badge order, the slot listed with a badge is what the badge reads as. -/
theorem lookupBadge_of_mem {badge slot : Nat} :
    ∀ {l : List (Nat × Nat)}, l.Pairwise (fun a b => a.1 < b.1) → (badge, slot) ∈ l →
      lookupBadge badge l = some slot
  | (b, k) :: rest, hs, hm => by
    rw [List.pairwise_cons] at hs
    rcases List.mem_cons.1 hm with e | hr
    · cases e
      simp [lookupBadge]
    · have hlt : b < badge := hs.1 _ hr
      rw [lookupBadge, if_neg (by omega)]
      exact lookupBadge_of_mem hs.2 hr

/-- A worker in use is the one of its slot. -/
theorem worker_unique {s : State} (hs : s.table.workers.Pairwise (fun a b => a.1 < b.1)) {slot : Nat}
    {w v : Worker} (hw : workerAt s slot = some w) (hv : (slot, v) ∈ s.table.workers) : v = w :=
  Option.some.inj ((lookupSlot_of_mem hs hv).symm.trans hw)

/-- Two workers in use with one badge are one worker. -/
theorem TableIndexed.slot_unique {s : State} (h : TableIndexed s) {badge a b : Nat}
    (ha : (badge, a) ∈ s.table.index) (hb : (badge, b) ∈ s.table.index) : a = b :=
  Option.some.inj ((lookupBadge_of_mem h.2.1 ha).symm.trans (lookupBadge_of_mem h.2.1 hb))

/-- An enrolment in a free slot under a free badge keeps the index exact (R32). -/
theorem TableIndexed.enrol {s : State} (h : TableIndexed s) {p : EnrolParams} {a : Assignment}
    (hslot : workerAt s p.slot = none) (hbadge : lookupBadge p.badge s.table.index = none) :
    TableIndexed (enrolWorker p a s) := by
  obtain ⟨hworkers, hindex, hexact⟩ := h
  refine ⟨putSlot_sorted _ _ hworkers,
    insertBadge_sorted _ _ hindex (lookupBadge_eq_none.1 hbadge), fun badge slot => ?_⟩
  have hfree : ∀ v : Worker, (p.slot, v) ∉ s.table.workers := fun v hv =>
    lookupSlot_eq_none.1 hslot _ hv rfl
  simp only [enrolWorker, mem_insertBadge, mem_putSlot_iff hworkers, hexact, Prod.mk.injEq]
  constructor
  · rintro (⟨rfl, rfl⟩ | ⟨w, hw, rfl⟩)
    · exact ⟨_, .inl ⟨rfl, rfl⟩, rfl⟩
    · exact ⟨w, .inr ⟨hw, fun e : slot = p.slot => hfree w (e ▸ hw)⟩, rfl⟩
  · rintro ⟨w, ⟨rfl, rfl⟩ | ⟨hw, -⟩, rfl⟩
    · exact .inl ⟨rfl, rfl⟩
    · exact .inr ⟨w, hw, rfl⟩

/-- The freeing of a slot takes its one pair out of the index (R35). -/
theorem TableIndexed.free {s t : State} (h : TableIndexed s) {slot : Nat} {w : Worker}
    (hw : workerAt s slot = some w) (hworkers : t.table.workers = dropSlot slot s.table.workers)
    (hindex : t.table.index = dropBadge w.badge s.table.index) : TableIndexed t := by
  refine ⟨hworkers ▸ dropSlot_sorted slot h.1, hindex ▸ dropBadge_sorted _ h.2.1, fun badge k => ?_⟩
  simp only [hworkers, hindex, mem_dropBadge, mem_dropSlot, h.2.2 badge k]
  constructor
  · rintro ⟨⟨v, hv, rfl⟩, hne⟩
    exact ⟨v, ⟨hv, fun e : k = slot => hne (congrArg _ (worker_unique h.1 hw (e ▸ hv)))⟩, rfl⟩
  · rintro ⟨v, ⟨hv, hne⟩, rfl⟩
    refine ⟨⟨v, hv, rfl⟩, fun e : v.badge = w.badge => hne ?_⟩
    have hk : (w.badge, k) ∈ s.table.index := (h.2.2 _ _).2 ⟨v, hv, e⟩
    exact h.slot_unique hk (h.badge_mem hw)

/-- A worker record in use written again, and the index with its badge moved, when the new badge is the
old one or free (R33). -/
theorem TableIndexed.amend {s t : State} (h : TableIndexed s) {slot : Nat} {w v : Worker}
    (hw : workerAt s slot = some w)
    (hbadge : v.badge ≠ w.badge → lookupBadge v.badge s.table.index = none)
    (hworkers : t.table.workers = putSlot slot v s.table.workers)
    (hindex : t.table.index = moveBadge w.badge v.badge slot s.table.index) : TableIndexed t := by
  have hput : t.table.workers.Pairwise (fun a b => a.1 < b.1) := hworkers ▸ putSlot_sorted slot v h.1
  unfold moveBadge at hindex
  split at hindex
  case isTrue hsame =>
    refine ⟨hput, hindex ▸ h.2.1, fun badge k => ?_⟩
    simp only [hindex, hworkers, h.2.2 badge k, mem_putSlot_iff h.1, Prod.mk.injEq]
    constructor
    · rintro ⟨u, hu, rfl⟩
      by_cases hk : k = slot
      · subst hk
        exact ⟨v, .inl ⟨rfl, rfl⟩, by rw [worker_unique h.1 hw hu, hsame]⟩
      · exact ⟨u, .inr ⟨hu, hk⟩, rfl⟩
    · rintro ⟨u, ⟨rfl, rfl⟩ | ⟨hu, -⟩, rfl⟩
      · exact ⟨w, mem_of_lookupSlot hw, hsame⟩
      · exact ⟨u, hu, rfl⟩
  case isFalse hmoved =>
    have hfree := hbadge (Ne.symm hmoved)
    have hnew : ∀ e ∈ dropBadge w.badge s.table.index, e.1 ≠ v.badge := fun e he =>
      lookupBadge_eq_none.1 hfree e (mem_dropBadge.1 he).1
    refine ⟨hput, hindex ▸ insertBadge_sorted _ _ (dropBadge_sorted _ h.2.1) hnew, fun badge k => ?_⟩
    simp only [hindex, hworkers, mem_insertBadge, mem_dropBadge, h.2.2 badge k, mem_putSlot_iff h.1,
      Prod.mk.injEq]
    constructor
    · rintro (⟨rfl, rfl⟩ | ⟨⟨u, hu, rfl⟩, hne⟩)
      · exact ⟨v, .inl ⟨rfl, rfl⟩, rfl⟩
      · exact ⟨u, .inr ⟨hu, fun e => hne (congrArg _ (worker_unique h.1 hw (e ▸ hu)))⟩, rfl⟩
    · rintro ⟨u, ⟨rfl, rfl⟩ | ⟨hu, hne⟩, rfl⟩
      · exact .inl ⟨rfl, rfl⟩
      · refine .inr ⟨⟨u, hu, rfl⟩, fun e : u.badge = w.badge => hne ?_⟩
        exact h.slot_unique ((h.2.2 _ _).2 ⟨u, hu, e⟩) (h.badge_mem hw)

/-- A record written with its badge kept leaves the index exact. -/
theorem TableIndexed.setWorker {s : State} (h : TableIndexed s) {slot : Nat} {w v : Worker}
    (hw : workerAt s slot = some w) (hb : v.badge = w.badge) : TableIndexed (setWorker slot v s) :=
  h.amend hw (fun hne => absurd hb hne) rfl (by simp [Machine.setWorker, setWorkers, moveBadge, hb])

/-! ### The counts of the zones -/

/-- How many workers stand in a zone after a record has been written. -/
theorem located_putSlot {s t : State} {slot : Nat} {v : Worker}
    (hs : s.table.workers.Pairwise (fun a b => a.1 < b.1))
    (ht : t.table.workers = putSlot slot v s.table.workers) (z : ZoneNo) :
    located t z + (workerAt s slot).elim 0 (fun w => bit (w.location == z)) =
      located s z + bit (v.location == z) := by
  unfold located
  rw [ht]
  exact countP_putSlot (fun w => w.location == z) slot v hs

/-- How many workers stand in a zone after a slot has been freed. -/
theorem located_dropSlot {s t : State} {slot : Nat} {w : Worker}
    (hs : s.table.workers.Pairwise (fun a b => a.1 < b.1)) (hw : workerAt s slot = some w)
    (ht : t.table.workers = dropSlot slot s.table.workers) (z : ZoneNo) :
    located t z + bit (w.location == z) = located s z := by
  have h := countP_dropSlot (fun w => w.location == z) slot hs
  rw [show lookupSlot slot s.table.workers = some w from hw] at h
  rw [located, ht]
  exact h

/-- A worker in use is one of those in its zone. -/
theorem bit_location_le_located {s : State} {slot : Nat} {w : Worker}
    (hs : s.table.workers.Pairwise (fun a b => a.1 < b.1)) (hw : workerAt s slot = some w)
    (z : ZoneNo) : bit (w.location == z) ≤ located s z := by
  have h := located_dropSlot (t := setWorkers s (dropSlot slot s.table.workers)) hs hw rfl z
  omega

/-- Zone `i + 1` is a zone number exactly when the number is one more than `i`. -/
theorem zone_beq_iff (z : ZoneNo) (i : Fin 15) :
    (z == (⟨i.val + 1, by omega⟩ : ZoneNo)) = decide (i.val + 1 = z.val) := by
  rw [Bool.eq_iff_iff, beq_iff_eq, decide_eq_true_iff, Fin.ext_iff, eq_comm]

/-- The occupancy of a zone after one worker more, or one less, in a zone. -/
theorem addOccupant_occupancy (z : ZoneNo) (s : State) (i : Fin 15) :
    (addOccupant z s).zones[i].occupancy =
      s.zones[i].occupancy + bit (z == (⟨i.val + 1, by omega⟩ : ZoneNo)) := by
  rw [addOccupant, modZone_zone, zone_beq_iff]
  by_cases h : i.val + 1 = z.val <;> simp [h, bit]

theorem dropOccupant_occupancy (z : ZoneNo) (s : State) (i : Fin 15) :
    (dropOccupant z s).zones[i].occupancy =
      s.zones[i].occupancy - bit (z == (⟨i.val + 1, by omega⟩ : ZoneNo)) := by
  rw [dropOccupant, modZone_zone, zone_beq_iff]
  by_cases h : i.val + 1 = z.val <;> simp [h, bit]

/-! ### The updates -/

/-- An update of the table and the zones alone, which keeps W. -/
theorem workStep_of_table {s : State} (t : WorkerTable) (z : Vector Zone 15)
    (hcap : t.capacity = s.table.capacity)
    (htable : TableIndexed s → TableIndexed { s with table := t, zones := z })
    (hzones : ZonesCounted s → ZonesCounted { s with table := t, zones := z }) :
    WorkStep s { s with table := t, zones := z } :=
  { WorkStep.refl s with
    capacity := hcap, table := htable, zones := hzones
    places := fun h => by simpa [queueCap, hcap] using h }

/-- A move of a worker in use takes it from the count of one zone to that of another (R67). -/
theorem moveWorker_workStep (slot : Nat) (z : ZoneNo) (s : State) :
    WorkStep s (moveWorker slot z s) := by
  unfold moveWorker
  split
  · exact .refl s
  · next w hw =>
    split
    · exact .refl s
    · next hne =>
      have hstate := modZone_eq w.location (fun e => { e with occupancy := e.occupancy - 1 })
        (setWorker slot { w with location := z } s)
      have hstate2 := modZone_eq z (fun e => { e with occupancy := e.occupancy + 1 })
        (dropOccupant w.location (setWorker slot { w with location := z } s))
      have hindexed : TableIndexed s → TableIndexed (addOccupant z (dropOccupant w.location
          (setWorker slot { w with location := z } s))) := fun h =>
        tableIndexed_of_eq (by simp [addOccupant, dropOccupant])
          (h.setWorker (v := { w with location := z }) hw rfl)
      have hcounted : ZonesCounted s → ZonesCounted (addOccupant z (dropOccupant w.location
          (setWorker slot { w with location := z } s))) := by
        intro h
        have hput : (addOccupant z (dropOccupant w.location
            (setWorker slot { w with location := z } s))).table.workers =
            putSlot slot { w with location := z } s.table.workers := by
          simp [addOccupant, dropOccupant, setWorker, setWorkers]
        refine ⟨hput ▸ putSlot_sorted slot _ h.1, fun i => ?_⟩
        have hcount := located_putSlot h.1 hput ⟨i.val + 1, by omega⟩
        rw [addOccupant_occupancy, dropOccupant_occupancy, setWorker_zones, h.2 i]
        have hleft := bit_location_le_located h.1 hw ⟨i.val + 1, by omega⟩
        rw [hw] at hcount
        simp only [Option.elim] at hcount
        omega
      rw [addOccupant, hstate2, dropOccupant, hstate] at *
      exact workStep_of_table _ _ rfl hindexed hcounted

/-- The freeing of a slot (R27, R35). -/
theorem freeWorker_workStep (slot : Nat) (s : State) : WorkStep s (freeWorker slot s) := by
  unfold freeWorker
  split
  · exact .refl s
  · next w hw =>
    generalize hu : ({ s with table := { s.table with
      workers := dropSlot slot s.table.workers
      index := dropBadge w.badge s.table.index } } : State) = u
    have hworkers : (dropOccupant w.location u).table.workers = dropSlot slot s.table.workers := by
      simp [dropOccupant, ← hu]
    have hindexed : TableIndexed s → TableIndexed (dropOccupant w.location u) := fun h =>
      h.free hw hworkers (by simp [dropOccupant, ← hu])
    have hcounted : ZonesCounted s → ZonesCounted (dropOccupant w.location u) := by
      refine fun h => ⟨hworkers ▸ dropSlot_sorted slot h.1, fun i => ?_⟩
      have hcount := located_dropSlot h.1 hw hworkers ⟨i.val + 1, by omega⟩
      have hzone : u.zones[i].occupancy = s.zones[i].occupancy := by rw [← hu]
      rw [dropOccupant_occupancy, hzone, h.2 i]
      omega
    rw [dropOccupant, modZone_eq, ← hu] at *
    exact workStep_of_table _ _ rfl hindexed hcounted

/-- An enrolment that its test passes (R32). -/
theorem enrolWorker_workStep {s : State} {p : EnrolParams} (a : Assignment)
    (hslot : workerAt s p.slot = none) (hbadge : lookupBadge p.badge s.table.index = none) :
    WorkStep s (enrolWorker p a s) :=
  workStep_of_table _ s.zones rfl (fun h => h.enrol hslot hbadge) fun h => by
    refine ⟨putSlot_sorted _ _ h.1, fun i => (h.2 i).trans ?_⟩
    have hcount := located_putSlot (t := enrolWorker p a s) h.1 rfl ⟨i.val + 1, by omega⟩
    have houtside : ((newWorker p a).location == (⟨i.val + 1, by omega⟩ : ZoneNo)) = false := by
      rw [zone_beq_iff]
      simp [newWorker]
    rw [hslot, houtside] at hcount
    exact hcount.symm

/-- An amendment that its tests pass (R33). -/
theorem amendSlot_workStep {s : State} {p : AmendParams} {w : Worker}
    (hw : workerAt s p.vals.slot = some w) (hb : badgeTaken s p = false) :
    WorkStep s (amendSlot p w s) := by
  have hfree (h : TableIndexed s) : (amendWorker s.cal p w).badge ≠ w.badge →
      lookupBadge (amendWorker s.cal p w).badge s.table.index = none := by
    intro hne
    have hbit : p.mask.getLsbD 0 = true := by
      by_contra hoff
      exact hne (if_neg hoff)
    have hval : (amendWorker s.cal p w).badge = p.vals.badge := if_pos hbit
    rw [hval] at hne ⊢
    cases hk : lookupBadge p.vals.badge s.table.index with
    | none => rfl
    | some k =>
      have hslot : k = p.vals.slot := by simpa [badgeTaken, hbit, hk] using hb
      obtain ⟨v, hv, hbadge⟩ := (h.2.2 _ _).1 (mem_of_lookupBadge hk)
      rw [hslot] at hv
      exact absurd (worker_unique h.1 hw hv ▸ hbadge).symm hne
  refine workStep_of_table _ s.zones rfl (fun h => h.amend hw (hfree h) rfl rfl) fun h => ?_
  refine ⟨putSlot_sorted _ _ h.1, fun i => (h.2 i).trans ?_⟩
  have hcount := located_putSlot (t := amendSlot p w s) h.1 rfl ⟨i.val + 1, by omega⟩
  have hplace : (amendWorker s.cal p w).location = w.location := rfl
  rw [hw, Option.elim, hplace] at hcount
  exact (Nat.add_right_cancel hcount).symm

/-- A table cleared has no one in it, and neither has any zone (R41). -/
theorem clearTable_workStep (s : State) : WorkStep s (clearTable s) :=
  workStep_of_table _ _ rfl
    (fun _ => ⟨.nil, .nil, fun _ _ => by simp⟩)
    fun _ => ⟨.nil, fun i => by simp [located]⟩

end Sys2Proof.Machine
end

section
/-! SUPPORT. Punches, deadlines, withdrawals and drains as work steps (chapters 6, 2.5 and 10.3). -/

namespace Sys2Proof.Machine

/-! ### Closings and punches -/

theorem closing_badge (cal : Calendar) (p : PayTables) (w : Worker) (i : OpenInterval) (t : Option Nat) :
    (closing cal p w i t).1.badge = w.badge := rfl

theorem closing_location (cal : Calendar) (p : PayTables) (w : Worker) (i : OpenInterval)
    (t : Option Nat) : (closing cal p w i t).1.location = w.location := rfl

theorem applyPunch_workStep (kind : PunchKind) (p : PassageInfo) (s : State) :
    WorkStep s (applyPunch kind p s).1 := by
  cases kind with
  | punchIn =>
    simp only [applyPunch]
    split
    · next w hw => exact setWorker_workStep hw rfl rfl
    · exact .refl s
  | punchOut =>
    simp only [applyPunch]
    split
    · next w hw =>
      split
      · exact setWorker_workStep hw (closing_badge ..) (closing_location ..)
      · exact .refl s
    · exact .refl s
  | reentry => exact .refl s
  | strayOut => exact .refl s
  | passage => exact .refl s

theorem autoClose_workStep (slot : Nat) (cause : CloseCause) (s : State) :
    WorkStep s (autoClose slot cause s) := by
  cases hw : workerAt s slot with
  | none =>
    rw [autoClose, hw]
    exact .refl s
  | some w =>
    cases hi : w.interval with
    | none =>
      simp only [autoClose, hw, hi]
      exact .refl s
    | some i =>
      rw [autoClose_eq cause hw hi]
      have hclosed := setWorker_workStep hw (closing_badge s.cal s.pay w i none)
        (closing_location s.cal s.pay w i none)
      exact hclosed.trans (handOver_workStep _ _ _)

theorem modInterval_workStep (slot : Nat) (f : OpenInterval → OpenInterval) (s : State) :
    WorkStep s (modInterval slot f s) := by
  unfold modInterval
  split
  · exact .refl s
  · next w hw =>
    split
    · exact .refl s
    · exact setWorker_workStep hw rfl rfl

/-! ### Deadlines -/

theorem actOnDeadline_workStep (slot : Nat) (s : State) : WorkStep s (actOnDeadline slot s) := by
  have hdue := modInterval_workStep slot (fun i => { i with due := false }) s
  unfold actOnDeadline
  dsimp only
  split
  · exact hdue
  · split
    · exact hdue.trans (autoClose_workStep _ _ _)
    · exact hdue.trans (modInterval_workStep _ _ _)

theorem actOnDeadlines_workStep (slots : List Nat) (s : State) :
    WorkStep s (actOnDeadlines slots s) :=
  foldl_workStep _ (fun s k => actOnDeadline_workStep k s) slots s

theorem firstDeadline_workStep (s : State) : WorkStep s (firstDeadline s) := by
  unfold firstDeadline
  split
  · exact actOnDeadline_workStep _ s
  · exact .refl s

theorem mapIntervals_workStep (f : OpenInterval → OpenInterval) (s : State) :
    WorkStep s (mapIntervals f s) :=
  mapWorkers_workStep _ fun _ _ => ⟨rfl, rfl⟩

theorem dropDue_workStep (s : State) : WorkStep s (dropDue s) := mapIntervals_workStep _ s

theorem entryDeadlines_workStep (s : State) : WorkStep s (entryDeadlines s) :=
  (dropDue_workStep s).trans (actOnDeadlines_workStep _ _)

theorem stepDeadlines_workStep (old new : Stamp) (s : State) :
    WorkStep s (stepDeadlines old new s) := by
  unfold stepDeadlines
  split
  · exact actOnDeadlines_workStep _ s
  · exact .refl s

theorem afterGrant_workStep (slot : Nat) (s : State) : WorkStep s (afterGrant slot s) := by
  unfold afterGrant
  split
  · exact .refl s
  · split
    · exact .refl s
    · split
      · exact actOnDeadline_workStep slot s
      · exact .refl s

theorem dropReservation_workStep (z : ZoneNo) (s : State) : WorkStep s (dropReservation z s) :=
  modZone_workStep z (fun e => { e with reserved := e.reserved - 1 }) (fun _ => rfl) s

theorem addReservation_workStep (z : ZoneNo) (s : State) : WorkStep s (addReservation z s) :=
  modZone_workStep z (fun e => { e with reserved := e.reserved + 1 }) (fun _ => rfl) s

/-! ### The request in progress -/

/-- A request in progress put at a stage that runs no check. -/
theorem setStage_workStep {g : Stage} (hg : g ≠ .checking) (s : State) : WorkStep s (setStage g s) :=
  workStep_of_link _ rfl rfl rfl fun d hd => by
    unfold checksDoor at hd
    cases hq : s.link.request with
    | none => simp [hq] at hd
    | some q =>
      simp only [hq, Option.map_some] at hd
      split at hd
      · next e => simp at e; exact absurd e.2.2.1 hg
      · cases hd

theorem beginRequest_workStep (r : Req) (notify : Bool) (s : State) :
    WorkStep s (beginRequest r notify s) :=
  workStep_of_link _ rfl rfl rfl fun d hd => by simp [checksDoor] at hd

theorem setProgress_workStep (cursor written : Nat) (s : State) :
    WorkStep s (setProgress cursor written s) :=
  workStep_of_link _ rfl rfl rfl fun d hd => by
    unfold checksDoor at hd ⊢
    cases hq : s.link.request with
    | none => simp [hq] at hd
    | some q =>
      obtain ⟨req, n, g, c, w⟩ := q
      simp only [hq, Option.map_some] at hd ⊢
      cases req <;> cases g <;> simp_all

theorem holdOutput_workStep (o : HeldOutput) (s : State) : WorkStep s (holdOutput o s) :=
  (workStep_of_link_request { s.link with output := some o } rfl rfl rfl rfl).trans
    (setStage_workStep (by decide) _)

/-! ### WITHDRAW and the drain -/

theorem forcedWithdraw_workStep (slot : Nat) (s : State) : WorkStep s (forcedWithdraw slot s) := by
  unfold forcedWithdraw
  dsimp only
  split
  · exact autoClose_workStep _ _ _
  · exact ((autoClose_workStep _ _ _).trans (freeWorker_workStep _ _)).trans (holdOutput_workStep _ _)

theorem takeWithdraw_workStep (slot : Nat) (force : Bool) (out : OutArea) (s : State) :
    WorkStep s (takeWithdraw slot force out s) := by
  unfold takeWithdraw
  split
  · exact endRequest_workStep _ _ _ _
  · split
    · split
      · exact setStage_workStep (by decide) s
      · exact forcedWithdraw_workStep slot s
    · exact (freeWorker_workStep slot s).trans (endRequest_workStep _ _ _ _)

theorem resumeWithdraw_workStep (s : State) : WorkStep s (resumeWithdraw s) := by
  unfold resumeWithdraw
  split
  · split
    · exact endRequest_workStep _ _ _ _
    · exact forcedWithdraw_workStep _ s
  · exact .refl s

theorem serveOne_workStep {s t : State} (h : serveOne s = some t) : WorkStep s t := by
  unfold serveOne at h
  split at h
  · split at h
    · cases h
      exact resumeWithdraw_workStep s
    · split at h
      · cases h
        exact autoClose_workStep _ _ s
      · cases h
  · cases h

theorem serveAll_workStep : ∀ (n : Nat) (s : State), WorkStep s (serveAll n s)
  | 0, s => .refl s
  | n + 1, s => by
    unfold serveAll
    split
    · next s1 h => exact (serveOne_workStep h).trans (serveAll_workStep n s1)
    · exact .refl s

theorem drainSteps_workStep : ∀ (n : Nat) (s : State), WorkStep s (drainSteps n s)
  | 0, s => .refl s
  | n + 1, s => by
    have hserved := serveAll_workStep (waiters s) s
    unfold drainSteps
    dsimp only
    split
    · split
      · next s2 h =>
        exact (hserved.trans (linkStep_of_tryWriteHead h).workStep).trans (drainSteps_workStep n s2)
      · next h => exact hserved.trans (linkStep_of_tryWriteHead h).workStep
    · exact hserved

theorem drain_workStep (s : State) : WorkStep s (drain s) := by
  unfold drain
  split
  · exact drainSteps_workStep _ s
  · exact .refl s

theorem serveWithdraw_workStep (s : State) : WorkStep s (serveWithdraw s) := by
  unfold serveWithdraw
  split
  · exact resumeWithdraw_workStep s
  · exact .refl s

theorem serveClosing_workStep (s : State) : WorkStep s (serveClosing s) := by
  unfold serveClosing
  split
  · split
    · exact autoClose_workStep _ _ s
    · exact .refl s
  · exact .refl s

/-! ### Bells -/

theorem reachEntry_workStep (day : Nat) (e : BellEntry) (s : State) :
    WorkStep s (reachEntry day e s) := by
  unfold reachEntry
  split
  · exact forCircuits_workStep _ _ s
  · exact .refl s

/-- A plan entry that is reached leaves H. -/
theorem reachEntry_passed (day : Nat) (e : BellEntry) (s : State) :
    (reachEntry day e s).bells.passed = s.bells.passed := by
  have hfold : ∀ (l : List CircuitNo) (u : State), (l.foldl (fun s c =>
      if e.circuits.getLsbD c.val then modCircuit c (Circuit.sound e.pattern e.duration) s else s)
      u).bells.passed = u.bells.passed := by
    intro l
    induction l with
    | nil => exact fun _ => rfl
    | cons c rest ih =>
      intro u
      rw [List.foldl_cons, ih]
      split <;> rfl
  unfold reachEntry soundEntry forCircuits
  split
  · exact hfold _ s
  · rfl

theorem firstEntry_workStep (s : State) : WorkStep s (firstEntry s) := by
  unfold firstEntry
  split
  · next rest _ =>
    exact (workStep_of_bells { s.bells with due := rest } le_rfl).trans (reachEntry_workStep _ _ _)
  · exact .refl s

theorem countBells_workStep (sec : Nat) (s : State) : WorkStep s (countBells sec s) := by
  unfold countBells
  split
  · next h => exact workStep_of_bells _ h.le
  · exact .refl s

theorem stepBells_workStep (old new : Stamp) (s : State) : WorkStep s (stepBells old new s) := by
  unfold stepBells
  split
  · exact .refl s
  · next h =>
    dsimp only
    generalize (passedEntries s.bells.plan s.bells.passed new.sec).filter
      (fun e => !stepSkips s new e.1 e.2.2) = l
    have hsound : WorkStep s (l.foldl (fun s e => reachEntry e.1 e.2.2 s) s) :=
      foldl_workStep _ (fun s e => reachEntry_workStep _ _ s) l s
    have hpassed : ∀ (l : List (Nat × Nat × BellEntry)) (u : State),
        (l.foldl (fun s e => reachEntry e.1 e.2.2 s) u).bells.passed = u.bells.passed := by
      intro l
      induction l with
      | nil => exact fun _ => rfl
      | cons e rest ih => exact fun u => (ih _).trans (reachEntry_passed _ _ _)
    generalize hs1 : l.foldl (fun s e => reachEntry e.1 e.2.2 s) s = s1 at hsound
    have hH : s1.bells.passed ≤ new.sec := by
      rw [← hs1, hpassed]
      omega
    have hmoved := hsound.trans (workStep_of_bells { s1.bells with passed := new.sec } hH)
    split
    · exact hmoved.trans (report_workStep _ _)
    · exact hmoved

theorem takeRing_workStep (mask : BitVec 8) (pattern duration : Nat) (s : State) :
    WorkStep s (takeRing mask pattern duration s) := by
  unfold takeRing
  split
  · exact endRequest_workStep _ _ _ _
  · exact (foldl_workStep _ (fun s c => modCircuit_workStep c _ s) _ s).trans
      (endRequest_workStep _ _ _ _)

/-! ### The clock -/

theorem clampTime_inRange {t : Stamp} (h : t.beat < 16) :
    (clampTime t).sec ≤ Config.lastSecond ∧ (clampTime t).beat < 16 := by
  unfold clampTime
  split
  · exact ⟨le_rfl, by decide⟩
  · exact ⟨by omega, h⟩

/-- A step of plant time to a whole beat (R11): the target is clamped into the range (R4). -/
theorem stepTo_workStep {target : Stamp} (cause : StepCause) (s : State) (h : target.beat < 16) :
    WorkStep s (stepTo target cause s) := by
  obtain ⟨hsec, hbeat⟩ := clampTime_inRange h
  have hset : WorkStep s { s with clock := { s.clock with now := clampTime target, slew := none } } :=
    workStep_of_clock _ rfl rfl fun hr => ⟨hsec, hbeat, hr.2.2⟩
  unfold stepTo
  dsimp only
  refine WorkStep.trans ?_ (stepDeadlines_workStep _ _ _)
  refine WorkStep.trans ?_ (stepBells_workStep _ _ _)
  refine WorkStep.trans (WorkStep.trans ?_ (report_workStep _ _)) (raise_workStep _ _)
  split
  · exact hset.trans (workStep_of_cal _ _)
  · exact hset

theorem changeSync_workStep (st : SyncState) (s : State) : WorkStep s (changeSync st s) := by
  unfold changeSync
  split
  · exact .refl s
  · have hset : WorkStep s { s with clock := { s.clock with sync := st } } :=
      workStep_of_clock _ rfl rfl (timeInRange_of_eq rfl rfl)
    exact (hset.trans (report_workStep _ _)).trans (raise_workStep _ _)

theorem markDeadlines_workStep (sec : Nat) (s : State) : WorkStep s (markDeadlines sec s) :=
  mapIntervals_workStep _ s

theorem nextBeat_inRange {c : Clock} (hsec : c.now.sec ≤ Config.lastSecond) (hbeat : c.now.beat < 16)
    (h : atEnd c = false) :
    (nextBeat c.now).sec ≤ Config.lastSecond ∧ (nextBeat c.now).beat < 16 := by
  unfold nextBeat
  split
  · next h15 =>
    have : c.now.sec ≠ Config.lastSecond := by simpa [atEnd, h15] using h
    exact ⟨by dsimp only; omega, Nat.zero_lt_succ 15⟩
  · exact ⟨hsec, by dsimp only; omega⟩

theorem countBeat_workStep (s : State) : WorkStep s (countBeat s) := by
  unfold countBeat
  split
  · next h =>
    have hend : atEnd s.clock = false := by simp at h; exact h.2
    have hset : WorkStep s { s with clock := { s.clock with now := nextBeat s.clock.now } } :=
      workStep_of_clock _ rfl rfl fun ⟨hsec, hbeat, hrho⟩ =>
        let ⟨a, b⟩ := nextBeat_inRange hsec hbeat hend
        ⟨a, b, hrho⟩
    dsimp only
    split
    · refine WorkStep.trans (WorkStep.trans ?_ (countBells_workStep _ _)) (markDeadlines_workStep _ _)
      split
      · exact hset.trans (workStep_of_cal _ _)
      · exact hset
    · exact hset
  · exact .refl s

theorem takeSetTime_workStep (sec : Nat) (s : State) : WorkStep s (takeSetTime sec s) := by
  unfold takeSetTime
  split
  · exact endRequest_workStep _ _ _ _
  · split
    · exact endRequest_workStep _ _ _ _
    · exact (stepTo_workStep (target := ⟨sec, 0⟩) _ s (Nat.zero_lt_succ 15)).trans (endRequest_workStep _ _ _ _)

theorem takeCalSet_workStep (day type : Nat) (s : State) : WorkStep s (takeCalSet day type s) := by
  unfold takeCalSet
  dsimp only
  split
  · exact endRequest_workStep _ _ _ _
  · split
    · exact endRequest_workStep _ _ _ _
    · exact (workStep_of_cal s _).trans (endRequest_workStep _ _ _ _)

theorem takeCalClear_workStep (day : Nat) (s : State) : WorkStep s (takeCalClear day s) := by
  unfold takeCalClear
  split
  · exact endRequest_workStep _ _ _ _
  · split
    · exact endRequest_workStep _ _ _ _
    · exact (workStep_of_cal s _).trans (endRequest_workStep _ _ _ _)

theorem endSlew_workStep (s : State) : WorkStep s (endSlew s) := by
  unfold endSlew
  split
  · split
    · exact workStep_of_clock _ rfl rfl (timeInRange_of_eq rfl rfl)
    · exact .refl s
  · exact .refl s

theorem endHoldover_workStep (s : State) : WorkStep s (endHoldover s) := by
  unfold endHoldover
  split
  · exact changeSync_workStep _ s
  · exact .refl s

theorem markEdge_workStep (quiet : Bool) (s : State) : WorkStep s (markEdge quiet s) :=
  workStep_of_clock _ rfl rfl (timeInRange_of_eq rfl rfl)

/-! ### Muster -/

theorem clearMuster_workStep (s : State) : WorkStep s (clearMuster s) :=
  mapWorkers_workStep _ fun _ _ => ⟨rfl, rfl⟩

theorem startMuster_workStep (s : State) : WorkStep s (startMuster s) := by
  unfold startMuster
  split
  · split
    · have hset : WorkStep s { s with fire := { s.fire with musterPending := false } } :=
        workStep_of_fire _ rfl
      dsimp only
      split
      · exact hset.trans (report_workStep _ _)
      · exact hset.trans (workStep_of_link_request _ rfl rfl rfl rfl)
    · exact .refl s
  · exact .refl s

theorem finishMuster_workStep (s : State) : WorkStep s (finishMuster s) := by
  unfold finishMuster
  split
  · next m _ =>
    split
    · have hwritten := (writeMuster_linkStep m.area ((m.entries.take m.count).drop m.next) m.next
        s).workStep
      split
      · next e =>
        rw [e] at hwritten
        exact hwritten.trans (workStep_of_link_request _ rfl rfl rfl rfl)
      · next i s1 e =>
        rw [e] at hwritten
        split
        · next e2 =>
          exact (hwritten.trans (linkStep_of_linkWrite e2).workStep).trans
            (workStep_of_link_request _ rfl rfl rfl rfl)
        · next s2 e2 =>
          exact ((hwritten.trans (linkStep_of_linkWrite e2).workStep).trans
            (workStep_of_link_request { s2.link with muster := none } rfl rfl rfl rfl)).trans
              (handOver_workStep _ _ _)
    · exact .refl s
  · exact .refl s

theorem musterCut_workStep (s : State) : WorkStep s (musterCut s) := by
  unfold musterCut
  split
  · split
    · exact (workStep_of_link_request { s.link with draws := s.link.draws + 1 } rfl rfl rfl rfl).trans
        (writeMuster_linkStep _ _ _ _).workStep
    · exact .refl s
  · exact .refl s

theorem haltMuster_workStep (s : State) : WorkStep s (haltMuster s) := by
  unfold haltMuster
  split
  · have hset : WorkStep s { s with link := { s.link with muster := none } } :=
      workStep_of_link_request _ rfl rfl rfl rfl
    dsimp only
    split
    · exact hset.trans (workStep_of_fire _ rfl)
    · exact hset
  · exact .refl s

theorem haltBells_workStep (s : State) : WorkStep s (haltBells s) :=
  (workStep_of_bells { s.bells with due := [] } le_rfl).trans (mapCircuits_workStep _ _)

end Sys2Proof.Machine
end

section
/-! SUPPORT. Requests, reader lines, polls and the parts of a load that set no door, as work steps
(chapters 2, 3, 7 and 10). -/

namespace Sys2Proof.Machine

/-! ### Requests -/

theorem enrolTest_ok {s : State} {p : EnrolParams} {a : Assignment} (h : enrolTest s p = .ok a) :
    workerAt s p.slot = none ∧ lookupBadge p.badge s.table.index = none := by
  unfold enrolTest at h
  split at h
  · cases h
  · split at h
    · cases h
    · split at h
      · cases h
      · next hslot =>
        split at h
        · cases h
        · next hbadge => exact ⟨by simpa using hslot, by simpa using hbadge⟩

theorem takeEnrol_workStep (p : EnrolParams) (s : State) : WorkStep s (takeEnrol p s) := by
  unfold takeEnrol
  split
  · exact endRequest_workStep _ _ _ _
  · next a h =>
    obtain ⟨hslot, hbadge⟩ := enrolTest_ok h
    exact (enrolWorker_workStep a hslot hbadge).trans (endRequest_workStep _ _ _ _)

theorem takeAmend_workStep (p : AmendParams) (s : State) : WorkStep s (takeAmend p s) := by
  unfold takeAmend
  split
  · exact endRequest_workStep _ _ _ _
  · split
    · exact endRequest_workStep _ _ _ _
    · next w hw =>
      split
      · exact endRequest_workStep _ _ _ _
      · next hb =>
        exact (amendSlot_workStep hw (by simpa using hb)).trans (endRequest_workStep _ _ _ _)

theorem takeRelocate_workStep (slot zone : Nat) (s : State) :
    WorkStep s (takeRelocate slot zone s) := by
  unfold takeRelocate
  split
  · exact endRequest_workStep _ _ _ _
  · exact (moveWorker_workStep _ _ s).trans (endRequest_workStep _ _ _ _)

theorem takeForgive_workStep (s : State) : WorkStep s (takeForgive s) := by
  unfold takeForgive
  split
  · exact endRequest_workStep _ _ _ _
  · exact (foldl_workStep _ (fun s k => moveWorker_workStep k 0 s) _ s).trans
      (endRequest_workStep _ _ _ _)

theorem takeZoneSet_workStep (zone : Nat) (present : Bool) (ceiling capacity : Nat) (s : State) :
    WorkStep s (takeZoneSet zone present ceiling capacity s) := by
  unfold takeZoneSet
  split
  · exact endRequest_workStep _ _ _ _
  · split
    · exact endRequest_workStep _ _ _ _
    · refine WorkStep.trans ?_ (endRequest_workStep _ _ _ _)
      exact modZone_workStep _ (Zone.replaced present ceiling capacity) (fun _ => rfl) s

theorem statementStep_workStep (s : State) : WorkStep s (statementStep s) := by
  unfold statementStep
  split
  · split
    · exact endRequest_workStep _ _ _ _
    · split
      · exact endRequest_workStep _ _ _ _
      · exact .refl s
  · exact .refl s

theorem takeStatement_workStep (first last : Nat) (out : OutArea) (s : State) :
    WorkStep s (takeStatement first last out s) := by
  unfold takeStatement
  split
  · exact endRequest_workStep _ _ _ _
  · split
    · exact endRequest_workStep _ _ _ _
    · exact ((setStage_workStep (by decide) s).trans (setProgress_workStep _ _ _)).trans
        (statementStep_workStep _)

theorem copyWorker_workStep {s : State} {slot : Nat} {w : Worker} (reset : Bool)
    (hw : workerAt s slot = some w) : WorkStep s (copyWorker slot w reset s) := by
  unfold copyWorker
  refine WorkStep.trans ?_ (holdOutput_workStep _ _)
  split
  · exact setWorker_workStep hw rfl rfl
  · exact .refl s

theorem nextCopy_workStep (s : State) : WorkStep s (nextCopy s) := by
  unfold nextCopy
  split
  · split
    · split
      · exact statementStep_workStep s
      · split
        · next hw => exact (copyWorker_workStep _ hw).trans (setProgress_workStep _ _ _)
        · exact .refl s
    · exact .refl s
  · exact .refl s

theorem undoCopy_workStep (r : StatementRec) (s : State) : WorkStep s (undoCopy r s) := by
  unfold undoCopy
  split
  · exact .refl s
  · next w hw =>
    split
    · exact setWorker_workStep hw rfl rfl
    · exact .refl s

theorem takeReadStatus_workStep (out : OutArea) (s : State) : WorkStep s (takeReadStatus out s) := by
  unfold takeReadStatus
  split
  · exact endRequest_workStep _ _ _ _
  · exact holdOutput_workStep _ s

theorem writeHeld_workStep (s : State) : WorkStep s (writeHeld s) := by
  unfold writeHeld
  split
  · next q o _ _ =>
    split
    · split
      · exact .refl s
      · next out _ =>
        split
        · next h => exact (linkStep_of_linkWrite h).workStep
        · next s1 h =>
          have hdone := ((linkStep_of_linkWrite h).workStep.trans (workStep_of_link_request
            { s1.link with output := none } rfl rfl rfl rfl)).trans
              (setProgress_workStep q.cursor (q.written + 1) _)
          dsimp only
          split
          · exact hdone.trans (statementStep_workStep _)
          · exact hdone.trans (endRequest_workStep _ _ _ _)
    · exact .refl s
  · exact .refl s

/-- A request handed to a block whose act is a work step. -/
theorem carryOut_workStep {r : Req} {notify : Bool} {f : State → State} (hf : ∀ s, WorkStep s (f s))
    (s : State) : WorkStep s (carryOut r notify f s) := by
  unfold carryOut
  split
  · exact (beginRequest_workStep r notify s).trans (hf _)
  · exact .refl s

/-! ### Reader lines -/

theorem lineAlive_workStep (l : LineNo) (k : FrameKind) (s : State) :
    WorkStep s (lineAlive l k s) := by
  unfold lineAlive
  dsimp only
  split
  · exact modLine_workStep _ _ s
  · exact (modLine_workStep _ _ s).trans (report_workStep _ _)

theorem lineTamper_workStep (l : LineNo) (k : FrameKind) (s : State) :
    WorkStep s (lineTamper l k s) := by
  unfold lineTamper
  split
  · exact .refl s
  · exact (modLine_workStep _ _ s).trans (report_workStep _ _)

theorem frameEnds_workStep (l : LineNo) (b : List Byte) (framing : Bool) (t : Stamp) (s : State) :
    WorkStep s (frameEnds l b framing t s) := by
  unfold frameEnds
  split
  · exact .refl s
  · split
    · exact modLine_workStep _ _ s
    · next k _ =>
      have hframe := (lineAlive_workStep l k s).trans (lineTamper_workStep l k _)
      dsimp only
      split
      · exact hframe.trans (modLine_workStep _ _ _)
      · exact hframe

theorem lineEnds_workStep (l : LineNo) (s : State) : WorkStep s (lineEnds l s) := by
  unfold lineEnds
  split
  · exact (modLine_workStep _ _ s).trans (report_workStep _ _)
  · exact .refl s

theorem applyAtOnce_workStep (slot : Nat) (door : Option DoorNo) (l : LineNo) (inward : Bool)
    (target : ZoneNo) (t : Stamp) (kind : PunchKind) (apbSoft : Bool) (s : State) :
    WorkStep s (applyAtOnce slot door l inward target t kind apbSoft s) := by
  unfold applyAtOnce
  exact ((moveWorker_workStep slot target s).trans (applyPunch_workStep _ _ _)).trans
    (handOver_workStep _ _ _)

theorem rollCall_workStep (slot : Nat) (l : LineNo) (zone : ZoneNo) (t : Stamp) (s : State) :
    WorkStep s (rollCall slot l zone t s) := by
  unfold rollCall
  split
  · exact .refl s
  · next w hw =>
    refine WorkStep.trans ?_ (handOver_workStep _ _ _)
    exact setWorker_workStep hw rfl rfl

/-! ### Polls -/

theorem restartPoll_workStep (s : State) : WorkStep s (restartPoll s) :=
  workStep_of_link_request _ rfl rfl rfl rfl

theorem takeBody_workStep (su : Setup) (off : Nat) (s : State) : WorkStep s (takeBody su off s) := by
  unfold takeBody
  dsimp only
  split
  · exact beginRequest_workStep _ _ s
  · refine WorkStep.trans ?_ (settleReturn_linkStep _).workStep
    exact workStep_of_link_request _ rfl rfl rfl rfl

theorem examineSlot_workStep (s : State) : WorkStep s (examineSlot s) := by
  unfold examineSlot
  split
  · exact .refl s
  · dsimp only
    split
    · next h => exact (linkStep_of_linkAccess h).workStep
    · next s1 h =>
      have hread := (linkStep_of_linkAccess h).workStep
      split
      · split
        · next h2 => exact hread.trans (linkStep_of_linkAccess h2).workStep
        · next h2 =>
          exact (hread.trans (linkStep_of_linkAccess h2).workStep).trans (takeBody_workStep _ _ _)
      · exact hread

theorem pollOnce_workStep (s : State) : WorkStep s (pollOnce s) := by
  have hdrained := (restartPoll_workStep s).trans (drain_workStep _)
  unfold pollOnce
  split
  · dsimp only
    split
    · exact hdrained.trans (examineSlot_workStep _)
    · exact hdrained
  · exact .refl s

/-! ### The resumption and HALT -/

theorem whileRunning_workStep {f : State → State} (hf : ∀ s, WorkStep s (f s)) (s : State) :
    WorkStep s (whileRunning f s) := by
  unfold whileRunning
  split
  · exact hf s
  · exact .refl s

theorem resumeLink_workStep (s : State) : WorkStep s (resumeLink s) := by
  unfold resumeLink
  refine WorkStep.trans ?_ (restartPoll_workStep _)
  refine WorkStep.trans ?_ (whileRunning_workStep startMuster_workStep _)
  refine WorkStep.trans ?_ (whileRunning_workStep drain_workStep _)
  refine WorkStep.trans ?_ (whileRunning_workStep writeHeld_workStep _)
  exact whileRunning_workStep (fun s => (settleReturn_linkStep s).workStep) s

theorem haltAnswer_workStep (q : Request) (s : State) : WorkStep s (haltAnswer q s).2.2 := by
  have hdrop (s : State) : WorkStep s { s with link := { s.link with output := none } } :=
    workStep_of_link_request _ rfl rfl rfl rfl
  unfold haltAnswer
  dsimp only
  split
  · split
    · exact (undoCopy_workStep _ s).trans (hdrop _)
    · exact hdrop s
  · exact hdrop s
  · exact hdrop s
  all_goals exact .refl s

theorem haltRequest_workStep (now : Bool) (s : State) : WorkStep s (haltRequest now s) := by
  unfold haltRequest
  split
  · exact .refl s
  · next q _ =>
    have hpend := (haltAnswer_workStep q s).trans
      (pendReturn_linkStep .haltedPartial (haltAnswer q s).1 (haltAnswer q s).2.1 _).workStep
    dsimp only
    split
    · exact hpend.trans (settleReturn_linkStep _).workStep
    · exact hpend

/-! ### Host writes and registers -/

theorem hostWrites_workStep (w : HostWrites) (s : State) : WorkStep s (s.hostWrites w) :=
  { WorkStep.refl s with ram := fun h => hostWrite_wf w h }

theorem clearEvents_workStep (v : Word) (s : State) : WorkStep s (clearEvents v s) := by
  unfold clearEvents
  split
  · exact .refl s
  · next hrun =>
    have hclear : WorkStep s
        { s with regs := { s.regs with events := s.regs.events &&& ~~~(v.setWidth 12) } } :=
      { WorkStep.refl s with quiet := fun _ h => absurd h hrun }
    dsimp only
    split
    · exact hclear.trans (workStep_of_link_request _ rfl rfl rfl rfl)
    · exact hclear

/-! ### The load -/

theorem readEntries_workStep : ∀ (l : List EntryRead) (s : State), WorkStep s (readEntries l s).2
  | [], s => .refl s
  | e :: rest, s => by
    unfold readEntries
    split
    · next h => exact (linkStep_of_linkAccess h).workStep
    · next s1 h =>
      have hread := (linkStep_of_linkAccess h).workStep
      split
      · exact hread
      · exact hread.trans (readEntries_workStep rest s1)

theorem enrolTest_withCal (s : State) (cal : Calendar) (p : EnrolParams) {a : Assignment}
    (h : enrolTest { s with cal := cal } p = .ok a) : WorkStep s (enrolWorker p a s) :=
  enrolWorker_workStep a (enrolTest_ok h).1 (enrolTest_ok h).2

theorem enrolRoster_workStep (cal : Calendar) (a : Word) :
    ∀ (n k : Nat) (s : State), WorkStep s (enrolRoster cal a k n s).2
  | 0, _, s => .refl s
  | n + 1, k, s => by
    unfold enrolRoster
    split
    · next h => exact (linkStep_of_linkAccess h).workStep
    · next s1 h =>
      have hread := (linkStep_of_linkAccess h).workStep
      dsimp only
      split
      · exact hread
      · next has =>
        exact (hread.trans (enrolTest_withCal s1 cal _ has)).trans (enrolRoster_workStep cal a n _ _)

theorem writeResult_linkStep (f : LoadFault) (s : State) : LinkStep s (writeResult f s).2 :=
  linkWrite_linkStep _ _ _ s

theorem linkStep_of_writeResult {f : LoadFault} {s t : State} {ok : Bool}
    (h : writeResult f s = (ok, t)) : LinkStep s t := by
  have := writeResult_linkStep f s
  rwa [h] at this

theorem startLink_workStep (s : State) : WorkStep s (startLink s) :=
  workStep_of_link_request _ rfl rfl rfl rfl

theorem startSync_workStep (s : State) : WorkStep s (startSync s) := by
  have hset : WorkStep s { s with clock := { s.clock with slew := none, holdover := 0 } } :=
    workStep_of_clock _ rfl rfl (timeInRange_of_eq rfl rfl)
  exact hset.trans (changeSync_workStep _ _)

end Sys2Proof.Machine
end

section
/-! SUPPORT. The laws of the whole part as one relation: `KeepsLaws s t` says that each law that holds of
`s` holds of `t`, and `Keeps s t` that in addition the fire state, the rate term and the clock's own rules
stand. Work steps keep all of them; a step at the doors does where what it makes of the doors and of the
places is lawful. -/

namespace Sys2Proof.Machine

/-- Each law of the whole part is kept, and the queue of waiting commands. -/
structure KeepsLaws (s t : State) : Prop where
  pending : t.pending = s.pending
  ram : RamCanonical s → RamCanonical t
  places : PlacesHeld s → PlacesHeld t
  doors : ChecksMarked s → ChecksMarked t ∧ (DoorsLawful s → DoorsLawful t)
  contacts : ContactsFollow s → ContactsFollow t
  sound : ConfigSound s ∧ ClearingQuiet s ∧ TimeInRange s →
    ConfigSound t ∧ ClearingQuiet t ∧ TimeInRange t
  table : TableIndexed s → TableIndexed t
  zones : ZonesCounted s → ZonesCounted t

/-- A valid clock stays valid, and H does not go back under it (1.1, 8.2). -/
def ClockStands (s t : State) : Prop :=
  s.clock.valid = true → t.clock.valid = true ∧ s.bells.passed ≤ t.bells.passed

/-- The laws are kept, and what only its own events move stands. -/
structure Keeps (s t : State) : Prop extends KeepsLaws s t where
  fireState : t.fire.state = s.fire.state
  clock : ClockStands s t
  rho : t.clock.rho = s.clock.rho

theorem KeepsLaws.refl (s : State) : KeepsLaws s s :=
  ⟨rfl, id, id, fun h => ⟨h, id⟩, id, id, id, id⟩

theorem KeepsLaws.trans {s t u : State} (h : KeepsLaws s t) (k : KeepsLaws t u) : KeepsLaws s u where
  pending := k.pending.trans h.pending
  ram := k.ram ∘ h.ram
  places := k.places ∘ h.places
  doors := fun hs =>
    let ⟨ht, hst⟩ := h.doors hs
    let ⟨hu, htu⟩ := k.doors ht
    ⟨hu, htu ∘ hst⟩
  contacts := k.contacts ∘ h.contacts
  sound := k.sound ∘ h.sound
  table := k.table ∘ h.table
  zones := k.zones ∘ h.zones

theorem ClockStands.refl (s : State) : ClockStands s s := fun h => ⟨h, le_rfl⟩

theorem ClockStands.trans {s t u : State} (h : ClockStands s t) (k : ClockStands t u) :
    ClockStands s u := fun hs =>
  let ⟨ht, hst⟩ := h hs
  let ⟨hu, htu⟩ := k ht
  ⟨hu, hst.trans htu⟩

theorem Keeps.refl (s : State) : Keeps s s := ⟨.refl s, rfl, .refl s, rfl⟩

theorem Keeps.trans {s t u : State} (h : Keeps s t) (k : Keeps t u) : Keeps s u :=
  ⟨h.toKeepsLaws.trans k.toKeepsLaws, k.fireState.trans h.fireState, h.clock.trans k.clock,
    k.rho.trans h.rho⟩

/-! ### What the laws of the doors depend on -/

/-- A door follows its contact circuit (R83). -/
def Door.follows (e : Door) : Prop := e.contact = contactOf e.entry.polarity e.circuit

/-- The laws of a door depend on the fire, the gates and the mode alone. -/
theorem doorLawful_congr {s t : State} (hfire : fireActive t = fireActive s)
    (hgates : gatesRun t = gatesRun s) (hmode : t.mode.rehearsal = s.mode.rehearsal) (e : Door) :
    DoorLawful t e ↔ DoorLawful s e := by
  simp only [DoorLawful, hfire, hgates, hmode]

theorem SideStep.doorLawful_iff {s t : State} (h : SideStep s t) (e : Door) :
    DoorLawful t e ↔ DoorLawful s e :=
  doorLawful_congr h.fireActive h.gatesRun (by rw [h.mode]) e

theorem SideStep.configSound {s t : State} (h : SideStep s t) (hs : ConfigSound s) : ConfigSound t :=
  ⟨fun hc => by
      rw [h.valid, h.setup, h.capacity]
      exact hs.1 (h.configValid ▸ hc),
    fun hg => by
      rw [h.configValid]
      exact hs.2 (h.gatesRun ▸ hg)⟩

/-- A step beside the doors keeps the laws where what it makes of the doors and of the places does. -/
theorem SideStep.keeps {s t : State} (h : SideStep s t) (places : PlacesHeld s → PlacesHeld t)
    (mark : ∀ d : DoorNo, s.doors[d].mark = true → checksDoor t d = true → t.doors[d].mark = true)
    (law : ChecksMarked s → DoorsLawful s → ∀ d : DoorNo, DoorLawful s t.doors[d])
    (follow : s.mode.rehearsal = false → ∀ d : DoorNo, s.doors[d].follows → t.doors[d].follows) :
    Keeps s t where
  pending := h.pending
  ram := h.ram
  places := places
  doors := fun hs => ⟨fun d hd => mark d (hs d (h.checks d hd)) hd,
    fun hl d => (h.doorLawful_iff _).2 (law hs hl d)⟩
  contacts := fun hs hr d => by
    rw [h.mode] at hr
    exact follow hr d (hs hr d)
  sound := fun ⟨a, b, c⟩ => ⟨h.configSound a, h.quiet b, h.inRange c⟩
  table := h.table
  zones := h.zones
  fireState := h.fireState
  clock := fun hv => ⟨h.valid.trans hv, h.passed⟩
  rho := h.rho

/-! ### The places -/

/-- The places count the grants and fit Q, and CLEARING knows no grant; the gates need not run. -/
def PlacesCounted (s : State) : Prop :=
  s.link.reserved = grantCount s ∧ s.link.queue.length + s.link.reserved ≤ queueCap s ∧
    (s.regs.run = .clearing → grantCount s = 0)

/-- A step beside the doors that keeps the places counted and makes no grant. -/
structure CountStep (s t : State) : Prop extends SideStep s t where
  counted : PlacesCounted s → PlacesCounted t ∧ grantCount t ≤ grantCount s

theorem CountStep.refl (s : State) : CountStep s s := ⟨.refl s, fun h => ⟨h, le_rfl⟩⟩

theorem CountStep.trans {s t u : State} (h : CountStep s t) (k : CountStep t u) : CountStep s u :=
  ⟨h.toSideStep.trans k.toSideStep, fun hs =>
    let ⟨ht, hst⟩ := h.counted hs
    let ⟨hu, htu⟩ := k.counted ht
    ⟨hu, htu.trans hst⟩⟩

theorem PlacesHeld.counted {s : State} (h : PlacesHeld s) : PlacesCounted s :=
  ⟨h.1, h.2.1, fun hc => h.2.2 (by simp [gatesRun, hc])⟩

theorem CountStep.placesHeld {s t : State} (h : CountStep s t) (hs : PlacesHeld s) : PlacesHeld t := by
  obtain ⟨⟨hV, hU, -⟩, hle⟩ := h.counted hs.counted
  refine ⟨hV, hU, fun hg => ?_⟩
  have := hs.2.2 (h.gatesRun ▸ hg)
  omega

/-- A step that leaves V and the number of grants, and keeps the places within Q. -/
theorem SideStep.countStep {s t : State} (h : SideStep s t) (hV : t.link.reserved = s.link.reserved)
    (hU : s.link.queue.length + s.link.reserved ≤ Machine.queueCap s →
      t.link.queue.length + t.link.reserved ≤ Machine.queueCap t)
    (hgrants : grantCount t = grantCount s) : CountStep s t :=
  ⟨h, fun ⟨a, b, c⟩ => ⟨⟨by rw [hV, hgrants, a], hU b, fun hc => by
    rw [hgrants]
    exact c (h.clearing_iff.1 hc)⟩, hgrants.le⟩⟩

theorem WorkStep.countStep {s t : State} (h : WorkStep s t) : CountStep s t :=
  h.toSideStep.countStep h.reserved h.places h.grantCount

/-- A work step keeps every law. -/
theorem WorkStep.keeps {s t : State} (h : WorkStep s t) : Keeps s t :=
  h.toSideStep.keeps h.countStep.placesHeld (fun d hd _ => by rw [h.doors]; exact hd)
    (fun _ hl d => by rw [h.doors]; exact hl d) fun _ d hd => by rw [h.doors]; exact hd

/-! ### One door -/

/-- What a door is after an update of one door. -/
theorem modDoor_door (d k : DoorNo) (f : Door → Door) (s : State) :
    (modDoor d f s).doors[k] = if k = d then f s.doors[k] else s.doors[k] := by
  by_cases h : k = d
  · subst h
    rw [if_pos rfl, modDoor_same]
  · rw [if_neg h, modDoor_other d k (Ne.symm h)]

/-- What is so of the door an update changes, and was so of each of the others, is so of every door. -/
theorem modDoor_forall {P : DoorNo → Door → Prop} {d : DoorNo} {f : Door → Door} {s : State}
    (hd : P d (f s.doors[d])) (h : ∀ k, k ≠ d → P k s.doors[k]) (k : DoorNo) :
    P k (modDoor d f s).doors[k] := by
  rw [modDoor_door]
  by_cases e : k = d
  · subst e
    rwa [if_pos rfl]
  · rw [if_neg e]
    exact h k e

theorem modDoor_sideStep (d : DoorNo) (f : Door → Door) (s : State) : SideStep s (modDoor d f s) :=
  { SideStep.refl s with }

/-- The grants that stand after a list has one entry replaced. -/
theorem countP_set {α : Type} (q : α → Bool) (a : α) :
    ∀ (l : List α) (i : Nat) (h : i < l.length),
      (l.set i a).countP q + bit (q l[i]) = l.countP q + bit (q a)
  | x :: rest, 0, _ => by
    cases h : q x <;> cases h' : q a <;> simp [bit, h, h']
  | x :: rest, i + 1, h => by
    have ih := countP_set q a rest i (by simpa using h)
    simp only [List.set_cons_succ, List.getElem_cons_succ, List.countP_cons]
    omega

/-- The grants that stand after an update of one door. -/
theorem grantCount_modDoor (d : DoorNo) (f : Door → Door) (s : State) :
    grantCount (modDoor d f s) + bit s.doors[d].grant.isSome =
      grantCount s + bit (f s.doors[d]).grant.isSome := by
  have h := countP_set (fun e : Door => e.grant.isSome) (f s.doors[d]) s.doors.toList d.val (by simp)
  rw [Vector.getElem_toList] at h
  rw [grantCount, modDoor_doors, Vector.toList_set]
  exact h

/-- A door that holds a grant is one of those that do. -/
theorem grantCount_pos {s : State} {d : DoorNo} (h : s.doors[d].grant.isSome = true) :
    0 < grantCount s := by
  have hset := grantCount_modDoor d (fun e => { e with grant := none }) s
  simp only [h, bit, if_true, Option.isSome_none, Bool.false_eq_true, if_false] at hset
  omega

/-- An update of one door that neither makes nor ends a grant. -/
theorem modDoor_countStep {d : DoorNo} {f : Door → Door} {s : State}
    (hgrant : (f s.doors[d]).grant.isSome = s.doors[d].grant.isSome) : CountStep s (modDoor d f s) := by
  refine (modDoor_sideStep d f s).countStep rfl id ?_
  have := grantCount_modDoor d f s
  rw [hgrant] at this
  omega

/-- A step that sets one door to `e`, beside what a counted step does. -/
structure DoorStep (d : DoorNo) (s t : State) (e : Door) : Prop extends CountStep s t where
  doors : t.doors = s.doors.set d.val e

theorem DoorStep.door {d : DoorNo} {s t : State} {e : Door} (h : DoorStep d s t e) :
    t.doors[d] = e := by
  rw [h.doors]
  simp

/-- A door set twice is as it was set last. -/
theorem DoorStep.trans {d : DoorNo} {s t u : State} {e f : Door} (h : DoorStep d s t e)
    (k : DoorStep d t u f) : DoorStep d s u f :=
  ⟨h.toCountStep.trans k.toCountStep, by rw [k.doors, h.doors]; simp⟩

theorem DoorStep.work {d : DoorNo} {s t u : State} {e : Door} (h : DoorStep d s t e)
    (k : WorkStep t u) : DoorStep d s u e :=
  ⟨h.toCountStep.trans k.countStep, k.doors.trans h.doors⟩

/-- A work step leaves each door as it was. -/
theorem WorkStep.doorStep {s t : State} (h : WorkStep s t) (d : DoorNo) :
    DoorStep d s t s.doors[d] :=
  ⟨h.countStep, by rw [h.doors]; simp⟩

/-- An update of one door that neither makes nor ends a grant. -/
theorem modDoor_doorStep {d : DoorNo} {f : Door → Door} {s : State}
    (hgrant : (f s.doors[d]).grant.isSome = s.doors[d].grant.isSome) :
    DoorStep d s (modDoor d f s) (f s.doors[d]) :=
  ⟨modDoor_countStep hgrant, rfl⟩

/-- A further update of the door that has been set. -/
theorem DoorStep.modDoor {d : DoorNo} {s t : State} {e : Door} (h : DoorStep d s t e) {f : Door → Door}
    (hgrant : (f e).grant.isSome = e.grant.isSome) : DoorStep d s (modDoor d f t) (f e) := by
  have hmod := modDoor_doorStep (d := d) (f := f) (s := t) (by rw [h.door, hgrant])
  rw [h.door] at hmod
  exact h.trans hmod

/-- A step that sets one door keeps every law where the door's own stand. -/
theorem DoorStep.keeps {d : DoorNo} {s t : State} {e : Door} (h : DoorStep d s t e)
    (hmark : s.doors[d].mark = true → checksDoor t d = true → e.mark = true)
    (hlaw : (checksDoor s d = true → s.doors[d].mark = true) → DoorLawful s s.doors[d] →
      DoorLawful s e)
    (hfollow : s.mode.rehearsal = false → s.doors[d].follows → e.follows) : Keeps s t := by
  have hdoors : t.doors = (Machine.modDoor d (fun _ => e) s).doors := h.doors
  refine h.toSideStep.keeps h.placesHeld ?_ (fun hc hl => ?_) fun hr => ?_
  · rw [hdoors]
    exact modDoor_forall (P := fun k e => s.doors[k].mark = true → checksDoor t k = true →
      e.mark = true) hmark fun _ _ h _ => h
  · rw [hdoors]
    exact modDoor_forall (P := fun _ e => DoorLawful s e) (hlaw (hc d) (hl d)) fun k _ => hl k
  · rw [hdoors]
    exact modDoor_forall (P := fun k e => s.doors[k].follows → e.follows) (hfollow hr) fun _ _ h => h

/-- A step that sets one door and keeps its mark, its contact and its laws. -/
theorem DoorStep.keeps_of_lawful {d : DoorNo} {s t : State} {e : Door} (h : DoorStep d s t e)
    (hmark : e.mark = s.doors[d].mark) (hlaw : DoorLawful s s.doors[d] → DoorLawful s e)
    (hfollow : s.doors[d].follows → e.follows) : Keeps s t :=
  h.keeps (fun hm _ => hmark.trans hm) (fun _ => hlaw) fun _ => hfollow

/-! ### A grant let go -/

/-- A door lets its grant go, and what follows touches no door and no place; then the grant's record
takes the place that was reserved for it. -/
theorem countStep_handOver {s u : State} {d : DoorNo} {f : Door → Door} (t : Stamp) (b : RecordBody)
    (hgrant : s.doors[d].grant.isSome = true) (hlet : (f s.doors[d]).grant = none)
    (hu : WorkStep (modDoor d f s) u) : CountStep s (handOver true t b u) := by
  refine ⟨((modDoor_sideStep d f s).trans hu.toSideStep).trans (handOver_sideStep true t b u),
    fun ⟨hV, hU, hclear⟩ => ?_⟩
  have hpos := grantCount_pos hgrant
  have hrun : s.regs.run ≠ .clearing := fun hc => by have := hclear hc; omega
  have hurun : u.regs.run ≠ .clearing := fun hc => hrun (hu.clearing_iff.1 hc)
  have hcount := grantCount_modDoor d f s
  simp only [hgrant, hlet, Option.isSome_none, bit, if_true, Bool.false_eq_true, if_false] at hcount
  have huV : u.link.reserved = s.link.reserved := hu.reserved
  obtain ⟨hplaceV, hplaceU⟩ := handOver_places true t b hurun fun _ => by omega
  have hlink := handOver_linkOnly true t b u
  have hgrants : grantCount (handOver true t b u) = grantCount (modDoor d f s) :=
    hlink.grantCount.trans hu.grantCount
  simp only [if_true] at hplaceV
  refine ⟨⟨by omega, ?_, fun hc => absurd (hlink.clearing_iff.1 hc) hurun⟩, by omega⟩
  rw [hlink.queueCap]
  exact hplaceU (hu.places hU)

end Sys2Proof.Machine
end

section
/-! SUPPORT. What makes a door lawful (R85 to R88, R98, R102), for each way a door is set; and an update
made at each door in turn as one update of all (R101, R102). -/

namespace Sys2Proof.Machine

/-! ### Ways to a lawful door -/

/-- A fault mark stands in these states only (R99). -/
def DoorState.bearsMark : DoorState → Bool
  | .inactive | .egress | .fault => true
  | .secure | .released | .open_ | .held | .forced | .free => false

theorem DoorState.bearsMark_iff (st : DoorState) :
    st.bearsMark = true ↔ st = .inactive ∨ st = .egress ∨ st = .fault := by
  cases st <;> decide

/-- What the laws of a door say beside its relay command. -/
structure DoorPlaced (s : State) (e : Door) : Prop where
  fire : e.state = .egress ↔ fireActive s = true
  grant : e.grant.isSome = true → e.state = .released ∧ gatesRun s = true
  mark : e.mark = true → e.state.bearsMark = true
  rest : e.entry.supervised = false → e.settle = none ∧ e.disagree = 0

/-- The command that a door's relay carries by its law (R86). -/
def lawfulCmd (s : State) (e : Door) : Relay :=
  if s.mode.rehearsal = true ∧ e.state ≠ .egress then .locked else wantedRelay e

theorem doorLawful_iff {s : State} {e : Door} :
    DoorLawful s e ↔ DoorPlaced s e ∧ e.cmd = lawfulCmd s e :=
  ⟨fun ⟨a, b, c, d, f⟩ => ⟨⟨a, b, fun h => (DoorState.bearsMark_iff _).2 (c h), f⟩, d⟩,
    fun ⟨⟨a, b, c, f⟩, d⟩ => ⟨a, b, fun h => (DoorState.bearsMark_iff _).1 (c h), d, f⟩⟩

theorem DoorLawful.placed {s : State} {e : Door} (h : DoorLawful s e) : DoorPlaced s e :=
  (doorLawful_iff.1 h).1

theorem DoorLawful.cmd {s : State} {e : Door} (h : DoorLawful s e) : e.cmd = lawfulCmd s e :=
  (doorLawful_iff.1 h).2

/-- A door that its laws place, with its relay commanded as its state wants, obeys them. -/
theorem DoorPlaced.drive {s : State} {e : Door} {want : Relay} (h : DoorPlaced s e)
    (hw : want = wantedRelay e) : DoorLawful s (drive s.mode.rehearsal want e) := by
  have hwanted : wantedRelay (Machine.drive s.mode.rehearsal want e) = wantedRelay e := by
    simp [wantedRelay]
  refine doorLawful_iff.2 ⟨⟨by simpa using h.fire, by simpa using h.grant, by simpa using h.mark,
    fun hs => drive_unsupervised _ _ _ (by simpa using hs) (h.rest (by simpa using hs))⟩, ?_⟩
  rw [drive_cmd, lawfulCmd, hwanted, drive_state, hw]

/-- The laws of a door do not see its timers outside a window, its contact or its start times. -/
theorem DoorLawful.of_eq {s : State} {e f : Door} (h : DoorLawful s e) (hstate : f.state = e.state)
    (hgrant : f.grant.isSome = true → e.grant.isSome = true) (hmark : f.mark = true → e.mark = true)
    (hcmd : f.cmd = e.cmd) (hwanted : wantedRelay f = wantedRelay e)
    (hrest : (e.entry.supervised = false → e.settle = none ∧ e.disagree = 0) →
      f.entry.supervised = false → f.settle = none ∧ f.disagree = 0) :
    DoorLawful s f := by
  obtain ⟨hfire, hg, hm, hc, hr⟩ := h
  refine ⟨hstate ▸ hfire, fun x => hstate ▸ hg (hgrant x), fun x => hstate ▸ hm (hmark x), ?_, hrest hr⟩
  rw [hcmd, hstate, hwanted]
  exact hc

/-- Outside INACTIVE and FAULT a door wants the relay of its state, window or not. -/
theorem wantedRelay_of_state {e : Door} (h : e.state ≠ .inactive ∧ e.state ≠ .fault) :
    wantedRelay e = relayOf e.state := by
  simp [wantedRelay, h.1, h.2]

/-- A door entered into a state is lawful where the fire, its grant and its mark allow the state. -/
theorem lawful_enter {s : State} {e : Door} {st : DoorState}
    (hrest : e.entry.supervised = false → e.settle = none ∧ e.disagree = 0)
    (hfire : st = .egress ↔ fireActive s = true)
    (hgrant : e.grant.isSome = true → st = .released ∧ gatesRun s = true)
    (hmark : e.mark = true → st.bearsMark = true) : DoorLawful s (enter s.mode.rehearsal st e) := by
  refine DoorPlaced.drive (e := { e with
    state := st, release := none, held := none, alarmStart := none, openStart := none })
    ⟨hfire, hgrant, hmark, hrest⟩ ?_
  rw [wantedRelay_noRelease _ rfl]

/-- A timer or a start time added to a door outside INACTIVE and FAULT. -/
theorem DoorLawful.withTimers {s : State} {e : Door} (h : DoorLawful s e)
    (hs : e.state ≠ .inactive ∧ e.state ≠ .fault) (release held : Option Nat)
    (alarmStart openStart : Option Stamp) :
    DoorLawful s { e with
      release := release, held := held, alarmStart := alarmStart, openStart := openStart } :=
  h.of_eq rfl id id rfl (by
    rw [wantedRelay_of_state hs]
    refine wantedRelay_of_state ?_
    exact hs) fun x => x

theorem lawful_enterOpen {s : State} {e : Door} (now : Stamp)
    (hrest : e.entry.supervised = false → e.settle = none ∧ e.disagree = 0)
    (hfire : fireActive s = false) (hgrant : e.grant = none) (hmark : e.mark = false) :
    DoorLawful s (enterOpen s.mode.rehearsal now e) :=
  (lawful_enter hrest (by simp [hfire]) (by simp [hgrant]) (by simp [hmark])).withTimers
    (by simp) _ _ _ _

theorem lawful_releaseFor {s : State} {e : Door} (seconds : Nat)
    (hrest : e.entry.supervised = false → e.settle = none ∧ e.disagree = 0)
    (hfire : fireActive s = false) (hgates : e.grant.isSome = true → gatesRun s = true)
    (hmark : e.mark = false) :
    DoorLawful s (releaseFor s.mode.rehearsal seconds e) :=
  (lawful_enter hrest (by simp [hfire]) (fun hg => ⟨rfl, hgates hg⟩) (by simp [hmark])).withTimers
    (by simp) _ _ _ _

/-- A window begun, or begun again, at an INACTIVE or FAULT door. -/
theorem DoorLawful.startWindow {s : State} {e : Door} (h : DoorLawful s e)
    (hs : e.state = .inactive ∨ e.state = .fault) :
    DoorLawful s (startWindow s.mode.rehearsal e) := by
  obtain ⟨hfire, hg, hm, hr⟩ := h.placed
  exact DoorPlaced.drive (e := { e with release := some (e.entry.release * 16) }) ⟨hfire, hg, hm, hr⟩
    (by simp [wantedRelay, hs])

/-- A window ended at an INACTIVE or FAULT door. -/
theorem DoorLawful.endWindow {s : State} {e : Door} (h : DoorLawful s e)
    (hs : e.state = .inactive ∨ e.state = .fault) : DoorLawful s (endWindow s.mode.rehearsal e) := by
  obtain ⟨hfire, hg, hm, hr⟩ := h.placed
  refine DoorPlaced.drive (e := { e with release := none }) ⟨hfire, hg, hm, hr⟩ ?_
  rw [wantedRelay_noRelease _ rfl]
  rcases hs with hs | hs <;> simp [hs, relayOf]

/-- A door outside EGRESS tells that no fire is active. -/
theorem DoorLawful.no_fire {s : State} {e : Door} (h : DoorLawful s e) (hs : e.state ≠ .egress) :
    fireActive s = false := by
  by_contra hf
  exact hs (h.placed.fire.2 (by simpa using hf))

/-- A door in a state that bears no mark has none. -/
theorem DoorLawful.unmarked {s : State} {e : Door} (h : DoorLawful s e) (hs : e.state.bearsMark = false) :
    e.mark = false := by
  by_contra hm
  have := h.placed.mark (by simpa using hm)
  simp [hs] at this

/-- A state that bears no mark is not EGRESS. -/
theorem DoorState.ne_egress_of_bearsMark {st : DoorState} (h : st.bearsMark = false) :
    st ≠ .egress := by
  rintro rfl
  simp [bearsMark] at h

/-- A door outside RELEASED holds no grant. -/
theorem DoorLawful.ungranted {s : State} {e : Door} (h : DoorLawful s e) (hs : e.state ≠ .released) :
    e.grant = none := by
  by_contra hg
  exact hs (h.placed.grant (Option.isSome_iff_ne_none.2 hg)).1

/-! ### The contact through an update -/

/-- An update of a door that keeps its entry's polarity, its circuit and its contact. -/
theorem Door.follows_of_eq {e f : Door} (he : f.entry = e.entry) (hc : f.contact = e.contact)
    (hk : f.circuit = e.circuit) (h : e.follows) : f.follows := by
  unfold Door.follows at *
  rw [he, hc, hk]
  exact h

theorem follows_enter {e : Door} (r : Bool) (st : DoorState) (h : e.follows) : (enter r st e).follows :=
  Door.follows_of_eq (by simp) (by simp) (by simp) h

theorem follows_drive {e : Door} (r : Bool) (w : Relay) (h : e.follows) : (drive r w e).follows :=
  Door.follows_of_eq (by simp) (by simp) (by simp) h

/-! ### Every door in turn -/

/-- The state with one update made at every door. -/
def mapDoors (f : Door → Door) (s : State) : State := { s with doors := s.doors.map f }

@[simp] theorem mapDoors_door (f : Door → Door) (s : State) (d : DoorNo) :
    (mapDoors f s).doors[d] = f s.doors[d] := by
  simp [mapDoors]

theorem modDoor_modDoor (d : DoorNo) (f g : Door → Door) (s : State) :
    modDoor d f (modDoor d g s) = modDoor d (fun e => f (g e)) s := by
  unfold modDoor
  simp

theorem modDoor_eq_self {d : DoorNo} {f : Door → Door} {s : State} (h : f s.doors[d] = s.doors[d]) :
    modDoor d f s = s := by
  unfold modDoor
  rw [h]
  simp

theorem foldl_modDoor_state (f : DoorNo → Door → Door) :
    ∀ (l : List DoorNo) (s : State), l.foldl (fun s d => modDoor d (f d) s) s =
      { s with doors := (l.foldl (fun s d => modDoor d (f d) s) s).doors }
  | [], _ => rfl
  | d :: rest, s => by
    rw [List.foldl_cons, foldl_modDoor_state f rest]
    rfl

theorem foldl_modDoor_door (f : DoorNo → Door → Door) (k : DoorNo) :
    ∀ (l : List DoorNo) (s : State), l.Nodup →
      (l.foldl (fun s d => modDoor d (f d) s) s).doors[k] =
        if k ∈ l then f k s.doors[k] else s.doors[k]
  | [], _, _ => by simp
  | d :: rest, s, h => by
    rw [List.nodup_cons] at h
    rw [List.foldl_cons, foldl_modDoor_door f k rest _ h.2, modDoor_door]
    by_cases e : k = d
    · subst e
      simp [h.1]
    · simp [e]

theorem mem_allDoors (d : DoorNo) : d ∈ allDoors := by decide +revert

/-- One update made at each door in turn is the update of every door. -/
theorem forDoors_modDoor (f : Door → Door) (s : State) :
    forDoors (fun d s => modDoor d f s) s = mapDoors f s := by
  unfold forDoors mapDoors
  rw [foldl_modDoor_state (fun _ => f)]
  congr 1
  refine Vector.ext fun i hi => ?_
  have h := foldl_modDoor_door (fun _ => f) ⟨i, hi⟩ allDoors s (by decide)
  rw [if_pos (mem_allDoors _)] at h
  simpa using h

end Sys2Proof.Machine
end

section
/-! SUPPORT. The operations of one door keep every law (chapter 5): contact events, REX presses, expiries,
relay findings, CLEAR_FAULT, DOOR_MODE and DOOR_PULSE. -/

namespace Sys2Proof.Machine

/-! ### The ends of a grant -/

/-- A door without its grant. -/
def Door.letGo (e : Door) : Door := { e with grant := none }

theorem DoorLawful.letGo {s : State} {e : Door} (h : DoorLawful s e) : DoorLawful s e.letGo :=
  h.of_eq rfl (fun hg => absurd hg (by simp [Door.letGo])) id rfl rfl fun x => x

theorem drive_letGo (r : Bool) (w : Relay) (e : Door) : (drive r w e).letGo = drive r w e.letGo := by
  unfold drive Door.letGo
  dsimp only
  split <;> split <;> rfl

theorem enter_letGo (r : Bool) (st : DoorState) (e : Door) :
    (enter r st e).letGo = enter r st e.letGo :=
  drive_letGo r (relayOf st)
    { e with state := st, release := none, held := none, alarmStart := none, openStart := none }

theorem enterOpen_letGo (r : Bool) (now : Stamp) (e : Door) :
    (enterOpen r now e).letGo = enterOpen r now e.letGo := by
  exact congrArg (fun f : Door =>
    { f with held := some (e.entry.heldLimit * 16), openStart := some now }) (enter_letGo r .open_ e)

/-- A door outside EGRESS that enters another of the states that the gates give. -/
theorem DoorLawful.enter {s : State} {e : Door} {st : DoorState} (h : DoorLawful s e)
    (hs : e.state ≠ .egress) (hst : st ≠ .egress) (hg : e.grant = none)
    (hm : e.state.bearsMark = false ∨ st.bearsMark = true) :
    DoorLawful s (enter s.mode.rehearsal st e) :=
  lawful_enter h.placed.rest (by simp [hst, h.no_fire hs]) (by simp [hg]) fun hmark =>
    hm.elim (fun hb => absurd hmark (by simp [h.unmarked hb])) id

/-- A door with its fault mark set. -/
def Door.marked (now : Stamp) (e : Door) : Door := { e with mark := true, faultTime := now }

theorem DoorLawful.marked {s : State} {e : Door} (h : DoorLawful s e) (now : Stamp)
    (hs : e.state.bearsMark = true) : DoorLawful s (e.marked now) :=
  doorLawful_iff.2 ⟨⟨h.placed.fire, h.placed.grant, fun _ => hs, h.placed.rest⟩, h.cmd⟩

/-- A door that a finding puts in FAULT (R99). -/
theorem DoorLawful.enterFault {s : State} {e : Door} (h : DoorLawful s e) (now : Stamp)
    (hs : e.state ≠ .egress) :
    DoorLawful s (Machine.enter s.mode.rehearsal .fault (e.letGo.marked now)) :=
  lawful_enter h.placed.rest (by simp [h.no_fire hs]) (by simp [Door.letGo, Door.marked])
    fun _ => rfl

theorem lapseGrant_none {d : DoorNo} {s : State} (h : s.doors[d].grant = none) (c : LapseCause) :
    lapseGrant d c s = s := by
  rw [lapseGrant, h]

theorem Door.letGo_of_none {e : Door} (h : e.grant = none) : e.letGo = e := by
  rw [Door.letGo, ← h]

/-- A lapse takes the grant from its door (R80). -/
theorem lapseGrant_doorStep (d : DoorNo) (c : LapseCause) (s : State) :
    DoorStep d s (lapseGrant d c s) s.doors[d].letGo := by
  cases h : s.doors[d].grant with
  | none =>
    rw [lapseGrant_none h, Door.letGo_of_none h]
    exact (WorkStep.refl s).doorStep d
  | some g =>
    rw [lapseGrant, h]
    refine DoorStep.work ?_ (afterGrant_workStep _ _)
    have hlet := dropReservation_workStep g.target (modDoor d Door.letGo s)
    exact ⟨countStep_handOver (f := Door.letGo) _ _ (by rw [h]; rfl) rfl hlet,
      ((handOver_linkOnly ..).doors.trans hlet.doors)⟩

/-- A passage of a grant that its door has let go in the update `f` (R77). -/
theorem passGrant_doorStep {s : State} {d : DoorNo} {f : Door → Door} (g : Grant)
    (hgrant : s.doors[d].grant.isSome = true) (hlet : (f s.doors[d]).grant = none) :
    DoorStep d s (passGrant d g (modDoor d f s)) (f s.doors[d]) := by
  unfold passGrant
  refine DoorStep.work ?_ (afterGrant_workStep _ _)
  have hpunch := ((moveWorker_workStep g.slot g.target (modDoor d f s)).trans
    (dropReservation_workStep g.target _)).trans (applyPunch_workStep g.kind
      (passageInfo (modDoor d f s) g.slot (some d) g.line g.inward g.target g.time g.apbSoft) _)
  exact ⟨countStep_handOver _ _ hgrant hlet hpunch, (handOver_linkOnly ..).doors.trans hpunch.doors⟩

/-! ### Contact events (R83, R90 to R92) -/

/-- What a contact event makes of a door beside its state: the contact is followed, and the laws of the
door are kept. -/
structure ContactSets (s : State) (c : Contact) (e f : Door) : Prop where
  contact : f.contact = c
  circuit : f.circuit = e.circuit
  entry : f.entry = e.entry
  mark : f.mark = e.mark
  law : DoorLawful s e → DoorLawful s f

/-- A door that its contact, once it has changed, makes enter another of the states that the gates
give. -/
theorem contactSets_enter {s : State} {c : Contact} {e : Door} {st : DoorState}
    (hs : e.state.bearsMark = false) (hg : e.grant = none ∨ e.state ≠ .released)
    (hst : st ≠ .egress) : ContactSets s c e (enter s.mode.rehearsal st { e with contact := c }) where
  contact := by simp
  circuit := by simp
  entry := by simp
  mark := by simp
  law := fun h => lawful_enter h.placed.rest (by simp [hst, h.no_fire (DoorState.ne_egress_of_bearsMark hs)])
    (by simp [hg.elim id h.ungranted]) (by simp [h.unmarked hs])

/-- A timer or a start time added to a door that a contact event has set. -/
theorem ContactSets.withTimers {s : State} {c : Contact} {e f : Door} (h : ContactSets s c e f)
    (hs : f.state ≠ .inactive ∧ f.state ≠ .fault) (held : Option Nat) (alarmStart openStart : Option Stamp) :
    ContactSets s c e { f with held := held, alarmStart := alarmStart, openStart := openStart } :=
  ⟨h.contact, h.circuit, h.entry, h.mark, fun hl => (h.law hl).withTimers hs _ _ _ _⟩

theorem ContactSets.follow {s : State} {c : Contact} {e : Door} :
    ContactSets s c e { e with contact := c } :=
  ⟨rfl, rfl, rfl, rfl, fun h => h.of_eq rfl id id rfl rfl fun x => x⟩

theorem contactSets_of_letGo {s : State} {c : Contact} {e f : Door}
    (h : ContactSets s c e.letGo f) : ContactSets s c e f :=
  ⟨h.contact, h.circuit, h.entry, h.mark, fun hl => h.law hl.letGo⟩

/-- A RELEASED door that opens lets its grant go (R90). -/
theorem contactSets_open (s : State) {e : Door} (hs : e.state = .released) :
    ContactSets s .open_ e { enterOpen s.mode.rehearsal s.clock.now { e with contact := .open_ } with
      grant := none } := by
  have hentered := contactSets_enter (s := s) (c := .open_) (e := e.letGo) (st := .open_)
    (by rw [Door.letGo, hs]; rfl) (.inl rfl) (by decide)
  have heq := enterOpen_letGo s.mode.rehearsal s.clock.now { e with contact := .open_ }
  rw [Door.letGo] at heq
  rw [heq]
  refine contactSets_of_letGo ?_
  exact hentered.withTimers (by simp) (some (e.entry.heldLimit * 16)) (enter _ _ _).alarmStart
    (some s.clock.now)

theorem restore_doorStep (d : DoorNo) (alarm : Alarm) (s : State) :
    DoorStep d s (restore d alarm s) (enter s.mode.rehearsal .secure s.doors[d]) :=
  (modDoor_doorStep (f := enter s.mode.rehearsal .secure) (by simp)).work (report_workStep _ _)

/-- A contact event sets its one door, which obeys its laws again. -/
theorem contactEvent_doorStep (d : DoorNo) (c : Contact) (s : State) :
    ∃ f, DoorStep d s (contactEvent d c s) f ∧ ContactSets s c s.doors[d] f := by
  have hfollow : DoorStep d s (modDoor d (fun e => { e with contact := c }) s)
      { s.doors[d] with contact := c } :=
    modDoor_doorStep (f := fun e => { e with contact := c }) rfl
  have hdoor := hfollow.door
  unfold contactEvent
  dsimp only
  split
  case h_1 hs =>
    rw [modDoor_modDoor]
    have hopened := contactSets_open s hs
    split
    · next g hg => exact ⟨_, passGrant_doorStep g (by rw [hg]; rfl) rfl, hopened⟩
    · next hg => exact ⟨_, modDoor_doorStep (by rw [hg]), hopened⟩
  case h_2 hs =>
    have hforced := contactSets_enter (s := s) (c := .open_) (e := s.doors[d]) (st := .forced)
      (by rw [hs]; rfl) (.inr (by rw [hs]; decide)) (by decide)
    refine ⟨_, ((hfollow.modDoor ?_).work (report_workStep _ _)).work (raise_workStep _ _),
      hforced.withTimers (by simp) _ _ _⟩
    simp
  case h_3 hs =>
    exact ⟨_, hfollow.modDoor (by simp), contactSets_enter (by rw [hs]; rfl)
      (.inr (by rw [hs]; decide)) (by decide)⟩
  case h_4 hs =>
    have hset := hfollow.trans (restore_doorStep d .held _)
    rw [hdoor] at hset
    exact ⟨_, hset, contactSets_enter (by rw [hs]; rfl)
      (.inr (by rw [hs]; decide)) (by decide)⟩
  case h_5 hs =>
    have hset := hfollow.trans (restore_doorStep d .forced _)
    rw [hdoor] at hset
    exact ⟨_, hset, contactSets_enter (by rw [hs]; rfl)
      (.inr (by rw [hs]; decide)) (by decide)⟩
  case h_6 => exact ⟨_, hfollow, .follow⟩

/-- In rehearsal an injected contact event keeps every law (R63, R64). -/
theorem contactEvent_keeps_rehearsal {d : DoorNo} {c : Contact} {s : State}
    (hr : s.mode.rehearsal = true) : Keeps s (contactEvent d c s) := by
  obtain ⟨f, hstep, hsets⟩ := contactEvent_doorStep d c s
  exact hstep.keeps (fun hm _ => hsets.mark.trans hm) (fun _ => hsets.law) fun hn =>
    absurd hr (by simp [hn])

/-- A change of a contact circuit keeps every law: outside rehearsal the contact follows it. -/
theorem changeCircuit_keeps (d : DoorNo) (closed : Bool) (s : State) :
    Keeps s (changeCircuit d closed s) := by
  have hcircuit : DoorStep d s (modDoor d (fun e => { e with circuit := closed }) s)
      { s.doors[d] with circuit := closed } :=
    modDoor_doorStep (f := fun e => { e with circuit := closed }) rfl
  have hlaw : DoorLawful s s.doors[d] → DoorLawful s { s.doors[d] with circuit := closed } :=
    fun h => h.of_eq rfl id id rfl rfl fun x => x
  unfold changeCircuit
  dsimp only
  split
  · next h =>
    refine hcircuit.keeps (fun hm _ => hm) (fun _ => hlaw) fun hr _ => ?_
    simp only [hr, Bool.false_or, beq_iff_eq] at h
    exact h.symm
  · obtain ⟨f, hstep, hsets⟩ := contactEvent_doorStep d
      (contactOf s.doors[d].entry.polarity closed)
      (modDoor d (fun e => { e with circuit := closed }) s)
    rw [hcircuit.door] at hsets
    refine (hcircuit.trans hstep).keeps (fun hm _ => hsets.mark.trans hm)
      (fun _ h => (hcircuit.doorLawful_iff _).1 (hsets.law ((hcircuit.doorLawful_iff _).2 (hlaw h))))
      fun _ _ => ?_
    rw [Door.follows, hsets.contact, hsets.entry, hsets.circuit]

end Sys2Proof.Machine
end

section
/-! SUPPORT. REX presses, expiries, findings, recompute and the requests of the doors keep every law
(chapter 5). -/

namespace Sys2Proof.Machine

/-! ### Recompute (R87) -/

/-- What recompute makes of a door. -/
def recomputedDoor (s : State) (e : Door) : Door :=
  if recomputedState s e = .inactive ∧ e.state = .inactive then e
  else if recomputedState s e = .open_ then enterOpen s.mode.rehearsal s.clock.now e
  else enter s.mode.rehearsal (recomputedState s e) e

theorem recompute_eq_modDoor (d : DoorNo) (s : State) :
    recompute d s = modDoor d (recomputedDoor s) s := by
  have hconst : modDoor d (recomputedDoor s) s = modDoor d (fun _ => recomputedDoor s s.doors[d]) s :=
    rfl
  rw [hconst]
  unfold recompute recomputedDoor
  dsimp only
  split
  · rw [modDoor_eq_self rfl]
  · rfl

theorem recomputedState_egress {s : State} {e : Door} :
    recomputedState s e = .egress ↔ fireActive s = true := by
  unfold recomputedState
  constructor
  · intro h
    by_contra hf
    rw [if_neg hf] at h
    split at h
    · cases h
    · split at h
      · cases h
      · split at h
        · cases h
        · split at h <;> cases h
  · intro h
    rw [if_pos h]

theorem recomputedState_open {s : State} {e : Door} (h : recomputedState s e = .open_) :
    e.mark = false := by
  unfold recomputedState at h
  split at h
  · cases h
  · split at h
    · cases h
    · split at h
      · cases h
      · next hm => simpa using hm

/-- The state that recompute sets bears the mark of a marked door. -/
theorem recomputedState_bearsMark {s : State} {e : Door} (h : e.mark = true) :
    (recomputedState s e).bearsMark = true := by
  unfold recomputedState
  split
  · rfl
  · split
    · rfl
    · rfl

@[simp] theorem recomputedDoor_entry (s : State) (e : Door) : (recomputedDoor s e).entry = e.entry := by
  unfold recomputedDoor
  split
  · rfl
  · split <;> simp [enterOpen]

@[simp] theorem recomputedDoor_grant (s : State) (e : Door) : (recomputedDoor s e).grant = e.grant := by
  unfold recomputedDoor
  split
  · rfl
  · split <;> simp [enterOpen]

@[simp] theorem recomputedDoor_mark (s : State) (e : Door) : (recomputedDoor s e).mark = e.mark := by
  unfold recomputedDoor
  split
  · rfl
  · split <;> simp [enterOpen]

theorem follows_recomputedDoor {s : State} {e : Door} (h : e.follows) :
    (recomputedDoor s e).follows := by
  unfold recomputedDoor
  split
  · exact h
  · split
    · exact follows_enter _ _ h
    · exact follows_enter _ _ h

/-- A door without a grant obeys its laws after a recompute; one that rests INACTIVE has to carry the
command of its law. -/
theorem lawful_recomputedDoor {s : State} {e : Door} (hgrant : e.grant = none)
    (hrest : e.entry.supervised = false → e.settle = none ∧ e.disagree = 0)
    (hcmd : e.state = .inactive → e.cmd = lawfulCmd s e) : DoorLawful s (recomputedDoor s e) := by
  unfold recomputedDoor
  split
  · next h =>
    obtain ⟨hst, hs⟩ := h
    have hfire : fireActive s ≠ true := fun hf => by
      rw [recomputedState_egress.2 hf] at hst
      cases hst
    exact doorLawful_iff.2 ⟨⟨by simp [hs, hfire], by simp [hgrant], fun _ => by rw [hs]; rfl, hrest⟩, hcmd hs⟩
  · split
    · next hopen =>
      refine lawful_enterOpen _ hrest ?_ hgrant (recomputedState_open hopen)
      by_contra hf
      rw [recomputedState_egress.2 (by simpa using hf)] at hopen
      cases hopen
    · exact lawful_enter hrest recomputedState_egress (by simp [hgrant]) recomputedState_bearsMark

theorem recompute_doorStep (d : DoorNo) (s : State) :
    DoorStep d s (recompute d s) (recomputedDoor s s.doors[d]) := by
  rw [recompute_eq_modDoor]
  exact modDoor_doorStep (by simp)

/-! ### REX and expiries -/

theorem checksDoor_endRequest (st : Status) (count resume : Option Nat) (s : State) (d : DoorNo) :
    checksDoor (endRequest st count resume s) d = false := by
  have hnone : (endRequest st count resume s).link.request = none := by
    have hpend : (pendReturn st count resume s).link.request = none := by
      unfold pendReturn
      split
      · assumption
      · rfl
    unfold endRequest
    dsimp only
    split
    · exact (settleReturn_linkOnly _).request.elim (fun h => h.trans hpend) id
    · exact hpend
  simp [checksDoor, hnone]

theorem startWindow_follows {r : Bool} {e : Door} (h : e.follows) : (startWindow r e).follows :=
  follows_drive r .released h

theorem endWindow_follows {r : Bool} {e : Door} (h : e.follows) : (endWindow r e).follows :=
  follows_drive r .locked h

theorem pressRex_keeps (d : DoorNo) (s : State) : Keeps s (pressRex d s) := by
  have window : s.doors[d].state = .inactive ∨ s.doors[d].state = .fault →
      Keeps s (modDoor d (startWindow s.mode.rehearsal) s) := fun hs =>
    (modDoor_doorStep (f := startWindow s.mode.rehearsal) (by simp [startWindow])).keeps_of_lawful
      (by simp [startWindow]) (fun h => h.startWindow hs) startWindow_follows
  unfold pressRex
  dsimp only
  split
  · exact .refl s
  · split
    case h_1 hs => exact window (.inl hs)
    case h_2 hs =>
      refine (modDoor_doorStep (f := releaseFor s.mode.rehearsal s.doors[d].entry.release)
        (by simp [releaseFor])).keeps_of_lawful (by simp [releaseFor]) (fun h => ?_)
        fun h => follows_enter _ _ h
      exact lawful_releaseFor _ h.placed.rest (h.no_fire (by rw [hs]; decide))
        (fun hg => (h.placed.grant hg).2) (h.unmarked (by rw [hs]; rfl))
    case h_3 hs =>
      refine (modDoor_doorStep (f := fun e => { e with release := some (e.entry.release * 16) })
        rfl).keeps_of_lawful rfl (fun h => ?_) id
      exact h.withTimers (by rw [hs]; decide) _ _ _ _
    case h_4 hs =>
      split
      · exact (window (.inr hs)).trans (endRequest_workStep _ _ _ _).keeps
      · exact window (.inr hs)
    all_goals exact .refl s

theorem releaseEnds_keeps (d : DoorNo) (s : State) : Keeps s (releaseEnds d s) := by
  have window (hs : s.doors[d].state = .inactive ∨ s.doors[d].state = .fault) :
      Keeps s (modDoor d (endWindow s.mode.rehearsal) s) :=
    (modDoor_doorStep (f := endWindow s.mode.rehearsal) (by simp [endWindow])).keeps_of_lawful
      (by simp [endWindow]) (fun h => h.endWindow hs) endWindow_follows
  unfold releaseEnds
  dsimp only
  split
  · split
    case h_1 hs =>
      have hentered : DoorStep d s (modDoor d (enter s.mode.rehearsal .secure) s)
          (enter s.mode.rehearsal .secure s.doors[d]) :=
        modDoor_doorStep (f := enter s.mode.rehearsal .secure) (by simp)
      have hlapsed := hentered.trans (lapseGrant_doorStep d .expiry _)
      rw [hentered.door] at hlapsed
      refine hlapsed.keeps_of_lawful (by simp [Door.letGo]) (fun h => ?_) fun h => ?_
      · rw [enter_letGo]
        exact h.letGo.enter (by rw [Door.letGo, hs]; decide) (by decide) rfl
          (.inl (by rw [Door.letGo, hs]; rfl))
      · exact follows_enter _ _ h
    case h_2 hs => exact window (.inl hs)
    case h_3 hs => exact window (.inr hs)
    all_goals exact .refl s
  · exact .refl s

theorem heldEnds_keeps (d : DoorNo) (s : State) : Keeps s (heldEnds d s) := by
  unfold heldEnds
  dsimp only
  split
  · next hs =>
    obtain ⟨hs, -⟩ := hs
    refine (((modDoor_doorStep ?_).work (report_workStep _ _)).work
      (raise_workStep _ _)).keeps_of_lawful ?_ (fun h => ?_) fun h => ?_
    · simp
    · simp
    · exact (h.enter (by rw [hs]; decide) (by decide) (h.ungranted (by rw [hs]; decide))
        (.inl (by rw [hs]; rfl))).withTimers (by simp) _ _ _ _
    · exact follows_enter _ _ h
  · exact .refl s

/-! ### Findings (R98, R99) -/

/-- A finding that is taken sets the mark, and the door as R99 gives. -/
theorem finding_keeps (d : DoorNo) (f : RelayFinding) (s : State) : Keeps s (finding d f s) := by
  unfold finding
  dsimp only
  split
  · exact .refl s
  · have hmarked : DoorStep d s
        (raise .doorAlarm (report (.doorFault d f.kind f.cmd f.readback s.doors[d].state)
          (modDoor d (Door.marked s.clock.now) s))) (s.doors[d].marked s.clock.now) :=
      ((modDoor_doorStep (f := Door.marked s.clock.now) rfl).work (report_workStep _ _)).work
        (raise_workStep _ _)
    have hlapsed := hmarked.trans (lapseGrant_doorStep d .fault _)
    rw [hmarked.door] at hlapsed
    have faulted {t : State} {e : Door} (ht : DoorStep d s t e) (he : e.mark = true)
        (hfollow : s.doors[d].follows → e.follows)
        (hlaw : DoorLawful s s.doors[d] → DoorLawful s (enter s.mode.rehearsal .fault e)) :
        Keeps s (modDoor d (enter s.mode.rehearsal .fault) t) :=
      (ht.modDoor (f := enter s.mode.rehearsal .fault) (by simp)).keeps (fun _ _ => by simp [he])
        (fun _ => hlaw) fun _ h => follows_enter _ _ (hfollow h)
    have standing (hs : s.doors[d].state ≠ .egress ∧ s.doors[d].state ≠ .released) :
        DoorLawful s s.doors[d] →
        DoorLawful s (enter s.mode.rehearsal .fault (s.doors[d].marked s.clock.now)) := fun h => by
      have hfault := h.enterFault s.clock.now hs.1
      rwa [Door.letGo_of_none (h.ungranted hs.2)] at hfault
    have resting (hs : s.doors[d].state.bearsMark = true) :=
      hmarked.keeps (fun _ _ => rfl) (fun _ h => h.marked s.clock.now hs) fun _ h => h
    split
    case h_1 hs =>
      exact faulted hlapsed rfl id fun h => h.enterFault s.clock.now (by rw [hs]; decide)
    case h_2 hs => exact faulted hmarked rfl id (standing (by rw [hs]; decide))
    case h_3 hs => exact faulted hmarked rfl id (standing (by rw [hs]; decide))
    case h_4 hs => exact faulted hmarked rfl id (standing (by rw [hs]; decide))
    case h_5 hs => exact faulted hmarked rfl id (standing (by rw [hs]; decide))
    case h_6 hs => exact faulted hmarked rfl id (standing (by rw [hs]; decide))
    case h_7 hs => exact resting (by rw [hs]; rfl)
    case h_8 hs => exact resting (by rw [hs]; rfl)
    case h_9 hs => exact resting (by rw [hs]; rfl)

theorem takeFinding_keeps (d : DoorNo) (f : RelayFinding) (s : State) :
    Keeps s (takeFinding d f s) :=
  ((modDoor_doorStep (f := fun e => { e with found := none }) rfl).keeps_of_lawful rfl
    (fun h => h.of_eq rfl id id rfl rfl fun x => x) id).trans (finding_keeps d f _)

theorem driftFound_keeps (d : DoorNo) (s : State) : Keeps s (driftFound d s) := by
  unfold driftFound
  split
  · exact takeFinding_keeps d _ s
  · exact .refl s

/-! ### CLEAR_FAULT (R100) -/

/-- A marked door whose check ends well is unmarked and recomputed. -/
theorem faultCleared_keeps {d : DoorNo} {s t : State} {e : Door} (h : DoorStep d s t e)
    (hfollow : s.doors[d].follows → e.follows)
    (hlaw : (checksDoor s d = true → s.doors[d].mark = true) → DoorLawful s s.doors[d] →
      e.grant = none ∧ DoorLawful s e) : Keeps s (faultCleared d t) := by
  have hunmarked := h.modDoor (f := fun e => { e with mark := false }) rfl
  have hrecomputed := hunmarked.trans (recompute_doorStep d _)
  rw [hunmarked.door] at hrecomputed
  have hstep := (hrecomputed.work (report_workStep
    (.doorRestored d .fault t.doors[d].faultTime) _)).work (endRequest_workStep .done (some 1) none _)
  refine hstep.keeps (fun _ hc => ?_) (fun hm hl => ?_) fun _ hf =>
    follows_recomputedDoor (hfollow hf)
  · rw [checksDoor_endRequest] at hc
    cases hc
  · obtain ⟨hgrant, hlawful⟩ := hlaw hm hl
    rw [← hunmarked.doorLawful_iff]
    refine lawful_recomputedDoor hgrant hlawful.placed.rest fun _ => ?_
    have hcmd := hlawful.cmd
    rw [lawfulCmd, ← hunmarked.mode] at hcmd
    exact hcmd

theorem settleEnds_keeps (d : DoorNo) (s : State) : Keeps s (settleEnds d s) := by
  have hover : DoorStep d s (modDoor d (fun e => { e with settle := none, disagree := 0 }) s)
      { s.doors[d] with settle := none, disagree := 0 } :=
    modDoor_doorStep (f := fun e => { e with settle := none, disagree := 0 }) rfl
  have hlaw (h : DoorLawful s s.doors[d]) :
      DoorLawful s { s.doors[d] with settle := none, disagree := 0 } :=
    h.of_eq rfl id id rfl rfl fun _ _ => ⟨rfl, rfl⟩
  have hkeeps := hover.keeps_of_lawful rfl hlaw id
  unfold settleEnds
  dsimp only
  split
  · next hcheck =>
    split
    · refine faultCleared_keeps hover id fun hm hl => ⟨hl.ungranted ?_, hlaw hl⟩
      have hbears := hl.placed.mark (hm hcheck.2)
      intro hs
      rw [hs] at hbears
      cases hbears
    · exact hkeeps.trans (endRequest_workStep _ _ _ _).keeps
  · split
    · exact takeFinding_keeps d _ s
    · split
      · exact hkeeps
      · exact .refl s

/-! ### The requests of the doors (R96, R97, R100) -/

theorem doorOf_eq_some {n : Nat} {d : DoorNo} (h : doorOf n = some d) : d.val = n := by
  unfold doorOf at h
  split at h
  · cases h
    rfl
  · cases h

/-- A check that begins at a marked door keeps every law. -/
theorem setStage_checking_keeps {s u : State} {d : DoorNo} (h : Keeps s u)
    (hmark : u.doors[d].mark = true)
    (hreq : ∀ q, u.link.request = some q → ∃ n : Nat, q.req = .clearFault n ∧ n = d.val) :
    Keeps s (setStage .checking u) :=
  { h with
    doors := fun hs => ⟨fun k hk => by
      unfold checksDoor setStage at hk
      dsimp only at hk
      cases hq : u.link.request with
      | none => simp [hq] at hk
      | some q =>
        obtain ⟨n, hn, rfl⟩ := hreq q hq
        obtain ⟨req, notify, g, c, w⟩ := q
        cases hn
        have hkd : d = k := by simpa [hq, Fin.ext_iff] using hk
        exact hkd ▸ hmark, (h.doors hs).2⟩ }

theorem takeClearFault_keeps {door : Nat} {s : State}
    (hreq : ∀ q, s.link.request = some q → q.req = .clearFault door) :
    Keeps s (takeClearFault door s) := by
  unfold takeClearFault
  split
  · exact (endRequest_workStep _ _ _ _).keeps
  · next d hd =>
    split
    · exact (endRequest_workStep _ _ _ _).keeps
    · next hfire =>
      split
      · exact (endRequest_workStep _ _ _ _).keeps
      · next hm =>
        have hmark : s.doors[d].mark = true := by simpa using hm
        have hended : DoorStep d s (modDoor d (endWindow s.mode.rehearsal) s)
            (endWindow s.mode.rehearsal s.doors[d]) :=
          modDoor_doorStep (f := endWindow s.mode.rehearsal) (by simp [endWindow])
        have rests (h : DoorLawful s s.doors[d]) :
            s.doors[d].state = .inactive ∨ s.doors[d].state = .fault := by
          rcases (DoorState.bearsMark_iff _).1 (h.placed.mark hmark) with hs | hs | hs
          · exact .inl hs
          · exact absurd (h.placed.fire.1 hs) hfire
          · exact .inr hs
        have hgrant (h : DoorLawful s s.doors[d]) : s.doors[d].grant = none :=
          h.ungranted (by rcases rests h with hs | hs <;> rw [hs] <;> decide)
        dsimp only
        split
        · next hsup =>
          have hsettle := hended.modDoor
            (f := fun e => { e with settle := some Config.settleBeats, disagree := 0 }) rfl
          have hsup' : (endWindow s.mode.rehearsal s.doors[d]).entry.supervised = true :=
            (congrArg DoorEntry.supervised (drive_entry _ _ _)).trans hsup
          have hkeeps := hsettle.keeps_of_lawful (by simp [endWindow])
            (fun h => (h.endWindow (rests h)).of_eq rfl id id rfl rfl fun _ hns => by
              exact absurd (hsup'.symm.trans hns) (by decide))
            endWindow_follows
          refine setStage_checking_keeps (d := d) hkeeps ?_ fun q hq => ⟨door, hreq q hq, ?_⟩
          · rw [hsettle.door]
            exact (drive_mark _ _ _).trans hmark
          · exact (doorOf_eq_some hd).symm
        · refine faultCleared_keeps hended endWindow_follows fun _ h =>
            ⟨(drive_grant _ _ _).trans (hgrant h), h.endWindow (rests h)⟩

theorem takeDoorPulse_keeps (door duration : Nat) (s : State) :
    Keeps s (takeDoorPulse door duration s) := by
  have ends (t : State) (h : Keeps s t) (st : Status) (count : Option Nat) :
      Keeps s (endRequest st count none t) := h.trans (endRequest_workStep _ _ _ _).keeps
  unfold takeDoorPulse
  split
  · exact ends s (.refl s) _ _
  · next d _ =>
    dsimp only
    split
    · exact ends s (.refl s) _ _
    · split
      case h_1 => exact ends s (.refl s) _ _
      case h_2 hs =>
        refine ends _ ((modDoor_doorStep
          (f := releaseFor s.mode.rehearsal (pulseSeconds s.doors[d] duration))
          (by simp [releaseFor])).keeps_of_lawful (by simp [releaseFor]) (fun h => ?_)
          fun h => follows_enter _ _ h) _ _
        exact lawful_releaseFor _ h.placed.rest (h.no_fire (by rw [hs]; decide))
          (fun hg => (h.placed.grant hg).2) (h.unmarked (by rw [hs]; rfl))
      case h_3 hs =>
        refine ends _ ((modDoor_doorStep
          (f := fun e => { e with release := some (pulseSeconds s.doors[d] duration * 16) })
          rfl).keeps_of_lawful rfl (fun h => ?_) id) _ _
        exact h.withTimers (by rw [hs]; decide) _ _ _ _
      all_goals exact ends s (.refl s) _ _

/-- A door without a grant that recompute sets, in a state where no window runs. -/
theorem DoorStep.recompute_keeps {d : DoorNo} {s t : State} {e : Door} (h : DoorStep d s t e)
    (hmark : e.mark = s.doors[d].mark) (hgrant : e.grant = none)
    (hlaw : DoorLawful s s.doors[d] → DoorLawful s e) (hfollow : s.doors[d].follows → e.follows) :
    Keeps s (recompute d t) := by
  have hstep := h.trans (recompute_doorStep d t)
  rw [h.door] at hstep
  refine hstep.keeps_of_lawful (by simp [hmark]) (fun hl => ?_) fun hf =>
    follows_recomputedDoor (hfollow hf)
  have hlawful := hlaw hl
  rw [← h.doorLawful_iff] at hlawful ⊢
  exact lawful_recomputedDoor hgrant hlawful.placed.rest fun _ => hlawful.cmd

theorem takeDoorMode_keeps (door mode : Nat) (s : State) : Keeps s (takeDoorMode door mode s) := by
  unfold takeDoorMode
  split
  · next d m _ _ =>
    dsimp only
    refine Keeps.trans ?_ (endRequest_workStep _ _ _ _).keeps
    have hmode : DoorStep d s (modDoor d (fun e => { e with entry := { e.entry with mode := m } }) s)
        { s.doors[d] with entry := { s.doors[d].entry with mode := m } } :=
      modDoor_doorStep (f := fun e => { e with entry := { e.entry with mode := m } }) rfl
    have hlapsed := hmode.trans (lapseGrant_doorStep d .mode _)
    rw [hmode.door] at hlapsed
    have hlaw (h : DoorLawful s s.doors[d]) : DoorLawful s
        ({ s.doors[d] with entry := { s.doors[d].entry with mode := m } } : Door).letGo :=
      DoorLawful.letGo (h.of_eq rfl id id rfl rfl fun x => x)
    have hkeeps := hlapsed.keeps_of_lawful rfl hlaw fun h => h
    have hrecomputed := hlapsed.recompute_keeps rfl rfl hlaw fun h => h
    split
    case h_4 | h_5 | h_6 =>
      split
      · exact hrecomputed
      · exact hkeeps
    case h_1 | h_2 | h_3 => exact hrecomputed
    case h_7 | h_8 | h_9 => exact hkeeps
  · exact (endRequest_workStep _ _ _ _).keeps

end Sys2Proof.Machine
end

section
/-! SUPPORT. What the presentation check makes: an acceptance at a door without room of its own is a
grant at a SECURE door, which takes one place of the holding queue; every other outcome is a work step. -/

namespace Sys2Proof.Machine

/-- A verdict of the gate checks that accepts at a door reader passes the door guard. -/
theorem gateChecks_accepted {s : State} {desc : ReaderDesc} {n slot : Nat} {w : Worker} {t : Nat}
    {kind : PunchKind} {soft inward : Bool} {d : DoorNo} (hd : desc.kind.door = some (d, inward))
    (h : gateChecks s desc n w t = .accepted slot kind soft) : doorGuard s.doors[d] = none := by
  unfold gateChecks at h
  rw [hd] at h
  dsimp only at h
  split at h
  · cases h
  · split at h
    · cases h
    · cases h
    · assumption

/-- A verdict of the identification that accepts is one of the gate checks. -/
theorem identify_accepted {s : State} {desc : ReaderDesc} {p : Presentation} {slot : Nat}
    {kind : PunchKind} {soft : Bool} (h : identify s desc p = .accepted slot kind soft) :
    ∃ n w, gateChecks s desc n w p.time.sec = .accepted slot kind soft := by
  unfold identify at h
  split at h
  · cases h
  split at h
  · cases h
  split at h
  · cases h
  split at h
  · cases h
  split at h
  · cases h
  split at h
  case h_1 => cases h
  case h_2 | h_3 | h_4 | h_5 => exact ⟨_, _, h⟩

/-- An acceptance at a door reader: the gates run, the queue has room, no fire stands, and the door is
free, or SECURE without a grant. -/
theorem checkPresentation_accepted {s : State} {injected : Bool} {l : LineNo} {p : Presentation}
    {slot : Nat} {kind : PunchKind} {soft inward : Bool} {d : DoorNo}
    (hd : s.lines[l].desc.kind.door = some (d, inward))
    (h : checkPresentation s injected l p = .accepted slot kind soft) :
    gatesRun s = true ∧ fireActive s = false ∧ hasRoom s = true ∧ doorGuard s.doors[d] = none := by
  unfold checkPresentation at h
  dsimp only at h
  rw [hd] at h
  split_ifs at h with hservice hfire hnofire hheld hroom
  obtain ⟨n, w, hgate⟩ := identify_accepted h
  refine ⟨?_, by simpa using hfire, by simpa using hroom, gateChecks_accepted hd hgate⟩
  cases hg : gatesRun s
  · simp [hg] at hservice
  · rfl

/-- The door guard at a door that is not FREE. -/
theorem doorGuard_secure {e : Door} (h : doorGuard e = none) (hs : e.state ≠ .free) :
    e.state = .secure ∧ e.grant = none := by
  unfold doorGuard at h
  split_ifs at h with h1 h2 h3
  rcases h3 with h3 | h3
  · exact h3
  · exact absurd h3 hs

/-- Room is a free place. -/
theorem freePlaces_of_hasRoom {s : State} (h : hasRoom s = true) : 1 ≤ freePlaces s := by
  unfold hasRoom at h
  have := of_decide_eq_true h
  split at this <;> omega

/-- The state with one place more reserved. -/
def countPlace (s : State) : State :=
  { s with link := { s.link with reserved := s.link.reserved + 1 } }

theorem countPlace_sideStep (s : State) : SideStep s (countPlace s) := { SideStep.refl s with }

theorem reservePlace_eq (s : State) : reservePlace s =
    if freePlaces s ≠ 0 ∧ freePlaces (countPlace s) = 0 then raise .holdFull (countPlace s)
    else countPlace s := rfl

theorem reservePlace_workStep (s : State) : WorkStep (countPlace s) (reservePlace s) := by
  rw [reservePlace_eq]
  split
  · exact raise_workStep _ _
  · exact .refl _

theorem reservePlace_sideStep (s : State) : SideStep s (reservePlace s) :=
  (countPlace_sideStep s).trans (reservePlace_workStep s).toSideStep

@[simp] theorem reservePlace_doors (s : State) : (reservePlace s).doors = s.doors :=
  (reservePlace_workStep s).doors

theorem reservePlace_link (s : State) :
    (reservePlace s).link = { s.link with reserved := s.link.reserved + 1 } := by
  rw [reservePlace_eq]
  split
  · exact raise_link _ _
  · rfl

/-- The door that a grant leaves RELEASED. -/
def grantedDoor (s : State) (g : Grant) (e : Door) : Door :=
  { releaseFor s.mode.rehearsal e.entry.release e with grant := some g }

theorem createGrant_doors (d : DoorNo) (g : Grant) (s : State) :
    (createGrant d g s).doors = s.doors.set d.val (grantedDoor s g s.doors[d]) := by
  have hdoors : (reservePlace (addReservation g.target s)).doors = s.doors :=
    (reservePlace_doors _).trans (addReservation_workStep g.target s).doors
  unfold createGrant
  rw [modDoor_doors, hdoors]
  rfl

theorem createGrant_sideStep (d : DoorNo) (g : Grant) (s : State) : SideStep s (createGrant d g s) :=
  (SideStep.trans (addReservation_workStep g.target s).toSideStep (reservePlace_sideStep _)).trans
    (modDoor_sideStep d _ _)

/-- A grant takes one place of the holding queue. -/
theorem createGrant_places (d : DoorNo) (g : Grant) (s : State) :
    (createGrant d g s).link.reserved = s.link.reserved + 1 ∧
      (createGrant d g s).link.queue = s.link.queue := by
  have hlink : (addReservation g.target s).link = s.link := by
    unfold addReservation
    rw [modZone_eq]
  have hplace := reservePlace_link (addReservation g.target s)
  constructor
  · exact (congrArg Link.reserved hplace).trans (by rw [hlink])
  · exact (congrArg Link.queue hplace).trans (by rw [hlink])

/-- A door that a grant names is released. -/
theorem DoorLawful.granted {s : State} {e : Door} (h : DoorLawful s e) (g : Grant)
    (hgates : gatesRun s = true) (hs : e.state = .secure) : DoorLawful s (grantedDoor s g e) := by
  have hlaw : DoorLawful s (releaseFor s.mode.rehearsal e.entry.release e) :=
    lawful_releaseFor _ h.placed.rest (h.no_fire (by rw [hs]; decide)) (fun _ => hgates)
      (h.unmarked (by rw [hs]; rfl))
  have hstate : (releaseFor s.mode.rehearsal e.entry.release e).state = .released := by simp [releaseFor]
  exact ⟨hlaw.1, fun _ => ⟨hstate, hgates⟩, hlaw.2.2⟩

/-- A grant made at a SECURE door while the gates run and a place is free. -/
theorem createGrant_keeps {d : DoorNo} {g : Grant} {s : State} (hgates : gatesRun s = true)
    (hroom : 1 ≤ freePlaces s) (hsecure : s.doors[d].state = .secure)
    (hnone : s.doors[d].grant = none) : Keeps s (createGrant d g s) := by
  have hstep := createGrant_sideStep d g s
  have hdoors : (createGrant d g s).doors = (modDoor d (grantedDoor s g) s).doors :=
    createGrant_doors d g s
  refine hstep.keeps (fun ⟨hV, hU, _⟩ => ?_) (fun k hm _ => ?_) (fun _ hl => ?_) fun _ => ?_
  · obtain ⟨hplaceV, hplaceU⟩ := createGrant_places d g s
    have hcount := grantCount_modDoor d (grantedDoor s g) s
    simp only [hnone, grantedDoor, Option.isSome_none, Option.isSome_some, bit, if_true,
      Bool.false_eq_true, if_false] at hcount
    have hgrants : grantCount (createGrant d g s) = grantCount s + 1 := by
      rw [grantCount, hdoors]
      exact hcount
    unfold freePlaces at hroom
    refine ⟨by rw [hplaceV, hgrants, hV], ?_, fun hg => ?_⟩
    · rw [hplaceV, hplaceU, hstep.queueCap]
      omega
    · rw [hstep.gatesRun, hgates] at hg
      cases hg
  · rw [hdoors]
    exact modDoor_forall (P := fun k e => s.doors[k].mark = true → e.mark = true)
      (fun h => by simpa [grantedDoor, releaseFor] using h) (fun _ _ h => h) k hm
  · rw [hdoors]
    exact modDoor_forall (P := fun _ e => DoorLawful s e) ((hl d).granted g hgates hsecure)
      fun k _ => hl k
  · rw [hdoors]
    exact modDoor_forall (P := fun k e => s.doors[k].follows → e.follows)
      (fun h => follows_enter _ _ h) fun _ _ h => h

/-! ### Outcomes -/

theorem outcome_keeps {s : State} {injected : Bool} {l : LineNo} {p : Presentation} :
    Keeps s (outcome l p (checkPresentation s injected l p) s) := by
  cases hv : checkPresentation s injected l p with
  | outOfService | egress | noFire | silent | busy => exact .refl s
  | hold =>
    exact (workStep_of_link_request { s.link with holdGap := satAdd 65535 s.link.holdGap 1 }
      rfl rfl rfl rfl).keeps
  | refused slot reason => exact (handOver_workStep _ _ _).keeps
  | rollCall slot zone => exact (rollCall_workStep _ _ _ _ _).keeps
  | accepted slot kind soft =>
    unfold outcome
    dsimp only
    split
    next d inward hd =>
      obtain ⟨hgates, -, hroom, hguard⟩ := checkPresentation_accepted hd hv
      split
      · exact (applyAtOnce_workStep _ _ _ _ _ _ _ _ _).keeps
      next hfree =>
        obtain ⟨hsecure, hnone⟩ := doorGuard_secure hguard hfree
        exact createGrant_keeps hgates (freePlaces_of_hasRoom hroom) hsecure hnone
    · exact (applyAtOnce_workStep _ _ _ _ _ _ _ _ _).keeps

theorem takePresentation_keeps (injected : Bool) (l : LineNo) (p : Presentation) (s : State) :
    Keeps s (takePresentation injected l p s).2 := by
  unfold takePresentation
  dsimp only
  split
  · exact outcome_keeps.trans (modLine_workStep _ _ _).keeps
  · exact outcome_keeps

theorem takeFromLine_keeps (l : LineNo) (p : Presentation) (s : State) :
    Keeps s (takeFromLine l p s) := by
  unfold takeFromLine
  split
  · exact (modLine_workStep _ _ _).keeps.trans (takePresentation_keeps _ _ _ _)
  · exact .refl s

theorem takeInject_keeps (p : InjectParams) (s : State) : Keeps s (takeInject p s) := by
  have refused : ∀ st count resume, Keeps s (endRequest st count resume s) :=
    fun _ _ _ => (endRequest_workStep _ _ _ _).keeps
  have ends : ∀ st count resume t, Keeps s t → Keeps s (endRequest st count resume t) :=
    fun _ _ _ t h => h.trans (endRequest_workStep _ _ _ t).keeps
  unfold takeInject
  split
  · exact refused _ _ _
  next hr =>
    have hr : s.mode.rehearsal = true := by simpa using hr
    split
    · split
      · split
        · exact ends _ _ _ _ (takePresentation_keeps _ _ _ _)
        · exact refused _ _ _
      · exact refused _ _ _
    split
    · split
      · refine ends _ _ _ _ ?_
        split
        · exact .refl s
        · exact contactEvent_keeps_rehearsal hr
      · exact refused _ _ _
    split
    · split
      · exact ends _ _ _ _ (pressRex_keeps _ _)
      · exact refused _ _ _
    · exact refused _ _ _

end Sys2Proof.Machine
end

section
/-! SUPPORT. A beat end and a sync mark keep the laws of the whole part (R1, R7, R98). -/

namespace Sys2Proof.Machine

/-! ### The doors at a beat end -/

theorem tick_isSome (n : Option Nat) : (tick n).isSome = n.isSome := by
  cases n <;> rfl

/-- A timer that counts leaves the relay that a door wants. -/
theorem wantedRelay_beat (b : Bool) (e : Door) : wantedRelay (e.beat b) = wantedRelay e := by
  have hrelease : (e.beat b).release.isSome = e.release.isSome := tick_isSome e.release
  unfold wantedRelay
  rw [hrelease]
  rfl

theorem DoorLawful.beat {s : State} {e : Door} (h : DoorLawful s e) (b : Bool) :
    DoorLawful s (e.beat b) := by
  refine h.of_eq rfl id id rfl (wantedRelay_beat b e) fun hrest hsup => ?_
  obtain ⟨hsettle, hdis⟩ := hrest hsup
  have hsup' : e.entry.supervised = false := hsup
  constructor
  · simp [Door.beat, hsettle, tick]
  · simp [Door.beat, hsup', hdis]

/-- The number of grants is that of the doors. -/
theorem grantCount_of_forall {s t : State}
    (h : ∀ d : DoorNo, t.doors[d].grant.isSome = s.doors[d].grant.isSome) :
    grantCount t = grantCount s := by
  unfold grantCount
  have hlist : ∀ v : Vector Door 12, v.toList.countP (fun e => e.grant.isSome) =
      (v.toList.map fun e => e.grant.isSome).countP id := fun v => by rw [List.countP_map]; rfl
  rw [hlist, hlist]
  congr 1
  refine List.ext_getElem (by simp) fun i hi hi' => ?_
  simpa using h ⟨i, by simpa using hi⟩

/-- A step beside the doors that updates every door, with its grant, its mark and its laws kept. -/
theorem SideStep.keeps_of_forall {s t : State} (h : SideStep s t)
    (hV : t.link.reserved = s.link.reserved)
    (hU : s.link.queue.length + s.link.reserved ≤ Machine.queueCap s →
      t.link.queue.length + t.link.reserved ≤ Machine.queueCap t)
    (hgrant : ∀ d : DoorNo, t.doors[d].grant.isSome = s.doors[d].grant.isSome)
    (hmark : ∀ d : DoorNo, t.doors[d].mark = s.doors[d].mark)
    (hlaw : ∀ d : DoorNo, DoorLawful s s.doors[d] → DoorLawful s t.doors[d])
    (hfollow : ∀ d : DoorNo, s.doors[d].follows → t.doors[d].follows) : Keeps s t :=
  h.keeps (h.countStep hV hU (grantCount_of_forall hgrant)).placesHeld
    (fun d hm _ => (hmark d).trans hm) (fun _ hl d => hlaw d (hl d)) fun _ => hfollow

/-- The doors and the lines as a beat end leaves them. -/
def beatDoors (readbacks : DoorPins) (s : State) : State :=
  { s with
    lines := s.lines.map Line.beat
    doors := s.doors.mapFinIdx fun i e _ => e.beat (readbacks.getLsbD i) }

@[simp] theorem beatDoors_door (readbacks : DoorPins) (s : State) (d : DoorNo) :
    (beatDoors readbacks s).doors[d] = s.doors[d].beat (readbacks.getLsbD d.val) := by
  simp [beatDoors]

theorem beatDoors_keeps (readbacks : DoorPins) (s : State) : Keeps s (beatDoors readbacks s) := by
  have hside : SideStep s (beatDoors readbacks s) := { SideStep.refl s with }
  refine hside.keeps_of_forall rfl id (fun d => ?_) (fun d => ?_) (fun d h => ?_) fun d h => ?_
  · rw [beatDoors_door]; rfl
  · rw [beatDoors_door]; rfl
  · rw [beatDoors_door]; exact h.beat _
  · rw [beatDoors_door]; exact h

theorem beatEnds_eq (readbacks : DoorPins) (s : State) : beatEnds readbacks s =
    if s.regs.run = .clearing then s
    else mapCircuits Circuit.beat
      (beatDoors readbacks (countBeat { s with clock := s.clock.beat })) := rfl

theorem beatEnds_keeps (readbacks : DoorPins) (s : State) : Keeps s (beatEnds readbacks s) := by
  have hclock : WorkStep s { s with clock := s.clock.beat } :=
    workStep_of_clock _ rfl rfl fun h => h
  rw [beatEnds_eq]
  split
  · exact .refl s
  · exact (((hclock.trans (countBeat_workStep _)).keeps.trans (beatDoors_keeps _ _)).trans
      (mapCircuits_workStep _ _).keeps)

/-! ### A mark -/

/-- The rate term moves by one unit at most, and stays within its range (R3, R7). -/
theorem nudgeRho_bounds {rho : Int} (d : Int) (h : -255 ≤ rho ∧ rho ≤ 255) :
    (-255 ≤ nudgeRho rho d ∧ nudgeRho rho d ≤ 255) ∧ (nudgeRho rho d - rho).natAbs ≤ 1 := by
  unfold nudgeRho
  split
  · omega
  · split <;> omega

/-- A step of the laws and of the clock's own rules, the rate term nudged. -/
structure MarkStep (s t : State) : Prop extends KeepsLaws s t where
  fireState : t.fire.state = s.fire.state
  clock : ClockStands s t
  rho : TimeInRange s → (t.clock.rho - s.clock.rho).natAbs ≤ 1

theorem Keeps.markStep {s t : State} (h : Keeps s t) : MarkStep s t :=
  ⟨h.toKeepsLaws, h.fireState, h.clock, fun _ => by rw [h.rho]; simp⟩

/-- A mark step, and then one that leaves the rate term. -/
theorem MarkStep.keeps {s t u : State} (h : MarkStep s t) (k : Keeps t u) : MarkStep s u :=
  ⟨h.toKeepsLaws.trans k.toKeepsLaws, k.fireState.trans h.fireState, h.clock.trans k.clock,
    fun hr => by rw [k.rho]; exact h.rho hr⟩

theorem Keeps.mark {s t u : State} (h : Keeps s t) (k : MarkStep t u)
    (hr : TimeInRange s → TimeInRange t) : MarkStep s u :=
  ⟨h.toKeepsLaws.trans k.toKeepsLaws, k.fireState.trans h.fireState, h.clock.trans k.clock,
    fun hs => by rw [← h.rho]; exact k.rho (hr hs)⟩

/-- The clock as a mark of deviation `d` leaves it, before the change of sync state. -/
def nudged (d : Int) (s : State) : State :=
  { s with clock := { s.clock with
    slew := none
    rho := nudgeRho s.clock.rho d
    lastDev := d
    holdover := Config.holdoverBeats } }

theorem nudged_markStep (d : Int) (s : State) : MarkStep s (nudged d s) where
  pending := rfl
  ram := id
  places := id
  doors := fun h => ⟨h, id⟩
  contacts := id
  sound := fun ⟨a, b, hsec, hbeat, hrho⟩ => ⟨a, b, hsec, hbeat, (nudgeRho_bounds d hrho).1⟩
  table := id
  zones := id
  fireState := rfl
  clock := fun h => ⟨h, le_rfl⟩
  rho := fun ⟨_, _, hrho⟩ => (nudgeRho_bounds d hrho).2

theorem processMark_eq (pos : Stamp) (s : State) : processMark pos s =
    let d := deviation pos
    let s1 := changeSync .locked (nudged d s)
    if d.natAbs ≤ 2 then s1
    else if d.natAbs ≤ 32 then { s1 with clock := { s1.clock with slew := some (slewFor d) } }
    else stepTo (markTarget pos d) .sync s1 := rfl

theorem markTarget_beat (t : Stamp) (d : Int) : (markTarget t d).beat = 0 := by
  unfold markTarget
  split <;> rfl

theorem processMark_markStep (pos : Stamp) (s : State) : MarkStep s (processMark pos s) := by
  have hlock : MarkStep s (changeSync .locked (nudged (deviation pos) s)) :=
    (nudged_markStep _ s).keeps (changeSync_workStep _ _).keeps
  rw [processMark_eq]
  dsimp only
  generalize changeSync .locked (nudged (deviation pos) s) = u at hlock ⊢
  split
  · exact hlock
  split
  · exact hlock.keeps (workStep_of_clock (s := u)
      { u.clock with slew := some (slewFor (deviation pos)) } rfl rfl fun h => h).keeps
  · exact hlock.keeps (stepTo_workStep _ _ (by rw [markTarget_beat]; decide)).keeps

theorem acceptMark_markStep (s : State) : MarkStep s (acceptMark s) := by
  have htaken : WorkStep s { s with clock := { s.clock with edge := none, markReady := false } } :=
    workStep_of_clock _ rfl rfl fun h => h
  unfold acceptMark
  split
  · exact (Keeps.refl s).markStep
  split
  · exact (Keeps.refl s).markStep
  dsimp only
  split
  · exact htaken.keeps.mark (processMark_markStep _ _) htaken.inRange
  · exact htaken.keeps.markStep

end Sys2Proof.Machine
end

section
/-! SUPPORT. The operations that act on every door: recompute, egress and HALT (R101, R102, R153, R177,
R182). Between their first act and their last the doors obey no law; each is therefore judged by what it
makes of the doors as a whole. -/

namespace Sys2Proof.Machine

/-! ### Every door in turn -/

theorem foldl_doorStep {f : DoorNo → State → State} {g : Door → Door}
    (h : ∀ d s, DoorStep d s (f d s) (g s.doors[d])) :
    ∀ (l : List DoorNo) (s : State), l.Nodup →
      CountStep s (l.foldl (fun s d => f d s) s) ∧
      ∀ k : DoorNo, (l.foldl (fun s d => f d s) s).doors[k] =
        if k ∈ l then g s.doors[k] else s.doors[k]
  | [], s, _ => ⟨.refl s, fun _ => by simp⟩
  | d :: rest, s, hnodup => by
    rw [List.nodup_cons] at hnodup
    obtain ⟨hcount, hdoors⟩ := foldl_doorStep h rest (f d s) hnodup.2
    refine ⟨(h d s).toCountStep.trans hcount, fun k => ?_⟩
    rw [List.foldl_cons, hdoors k]
    have hd := (h d s).door
    by_cases e : k = d
    · subst e
      rw [if_neg hnodup.1, hd, if_pos List.mem_cons_self]
    · have hk : (f d s).doors[k] = s.doors[k] := by
        have hne : d.val ≠ k.val := fun hv => e (Fin.ext hv.symm)
        rw [(h d s).doors]
        simp [hne]
      rw [hk]
      simp [e]

/-- A step that acts on each door by its own is one that acts on every door. -/
theorem forDoors_doorStep {f : DoorNo → State → State} {g : Door → Door}
    (h : ∀ d s, DoorStep d s (f d s) (g s.doors[d])) (s : State) :
    CountStep s (forDoors f s) ∧ ∀ k : DoorNo, (forDoors f s).doors[k] = g s.doors[k] := by
  obtain ⟨hcount, hdoors⟩ := foldl_doorStep h allDoors s (by decide)
  exact ⟨hcount, fun k => by rw [forDoors, hdoors k, if_pos (mem_allDoors k)]⟩

/-- An update of each door in turn that depends on the state beside the doors alone. -/
theorem forDoors_eq_mapDoors {f : DoorNo → State → State} {g : Door → Door} {s : State}
    (h : ∀ (d : DoorNo) (ds : Vector Door 12),
      f d { s with doors := ds } = modDoor d g { s with doors := ds }) : forDoors f s = mapDoors g s := by
  have hfold : ∀ (l : List DoorNo) (ds : Vector Door 12),
      l.foldl (fun s d => f d s) { s with doors := ds } =
        l.foldl (fun s d => modDoor d g s) { s with doors := ds } := by
    intro l
    induction l with
    | nil => intro ds; rfl
    | cons d rest ih =>
      intro ds
      rw [List.foldl_cons, List.foldl_cons, h d ds]
      exact ih _
  calc forDoors f s
      = forDoors (fun d s => modDoor d g s) s := hfold allDoors s.doors
    _ = mapDoors g s := forDoors_modDoor g s

theorem recomputeDoors_eq (s : State) : recomputeDoors s = mapDoors (recomputedDoor s) s := by
  refine forDoors_eq_mapDoors fun d ds => ?_
  rw [recompute_eq_modDoor]
  rfl

/-- Every door put in a state, where it is not in EGRESS yet. -/
def settledDoor (rehearsal : Bool) (st : DoorState) (e : Door) : Door :=
  if e.state = .egress then e else enter rehearsal st e

theorem forDoors_enter (st : DoorState) (s : State) :
    forDoors (fun d s =>
      if s.doors[d].state = .egress then s else modDoor d (enter s.mode.rehearsal st) s) s =
      mapDoors (settledDoor s.mode.rehearsal st) s := by
  refine forDoors_eq_mapDoors fun d ds => ?_
  by_cases hs : ds[d].state = .egress
  · rw [if_pos hs]
    refine (modDoor_eq_self ?_).symm
    exact if_pos hs
  · rw [if_neg hs]
    have hconst : modDoor d (settledDoor s.mode.rehearsal st) { s with doors := ds } =
      modDoor d (fun _ => settledDoor s.mode.rehearsal st ds[d]) { s with doors := ds } := rfl
    rw [hconst, settledDoor, if_neg hs]
    rfl

theorem mapDoors_countStep {f : Door → Door} (s : State)
    (hgrant : ∀ e, (f e).grant.isSome = e.grant.isSome) : CountStep s (mapDoors f s) := by
  have hside : SideStep s (mapDoors f s) := { SideStep.refl s with }
  exact hside.countStep rfl id (grantCount_of_forall fun d => by rw [mapDoors_door, hgrant])

@[simp] theorem settledDoor_grant (r : Bool) (st : DoorState) (e : Door) :
    (settledDoor r st e).grant = e.grant := by
  unfold settledDoor; split <;> simp

@[simp] theorem settledDoor_mark (r : Bool) (st : DoorState) (e : Door) :
    (settledDoor r st e).mark = e.mark := by
  unfold settledDoor; split <;> simp

theorem follows_settledDoor {e : Door} (r : Bool) (st : DoorState) (h : e.follows) :
    (settledDoor r st e).follows := by
  unfold settledDoor
  split
  · exact h
  · exact follows_enter _ _ h

/-- Every grant lapses, and every door not in EGRESS enters a state. -/
def settleDoors (st : DoorState) (c : LapseCause) (s : State) : State :=
  mapDoors (settledDoor s.mode.rehearsal st) (forDoors (fun d s => lapseGrant d c s) s)

theorem settleDoors_spec (st : DoorState) (c : LapseCause) (s : State) :
    CountStep s (settleDoors st c s) ∧
      ∀ d : DoorNo, (settleDoors st c s).doors[d] =
        settledDoor s.mode.rehearsal st s.doors[d].letGo := by
  obtain ⟨hcount, hdoors⟩ := forDoors_doorStep (fun d s => lapseGrant_doorStep d c s) s
  exact ⟨hcount.trans (mapDoors_countStep _ fun e => by simp),
    fun d => by rw [settleDoors, mapDoors_door, hdoors]⟩

theorem egressDoors_eq (s : State) : egressDoors s = settleDoors .egress .fire s := by
  have hmode := (forDoors_doorStep (fun d s => lapseGrant_doorStep d .fire s) s).1.mode
  unfold egressDoors settleDoors
  rw [forDoors_enter, hmode]

theorem haltDoors_eq (s : State) : haltDoors s = settleDoors .inactive .halt s := by
  have hmode := (forDoors_doorStep (fun d s => lapseGrant_doorStep d .halt s) s).1.mode
  unfold haltDoors settleDoors
  rw [forDoors_enter, hmode]

/-! ### The fire state set -/

/-- The fire state set, and then a counted step: the laws beside those of the doors are kept. -/
theorem CountStep.keepsLaws_of_fire {s t : State} {F : FireUnit}
    (h : CountStep { s with fire := F } t)
    (hmark : ∀ d : DoorNo, t.doors[d].mark = s.doors[d].mark)
    (hlaw : ∀ d : DoorNo, DoorLawful s s.doors[d] → DoorLawful t t.doors[d])
    (hfollow : ∀ d : DoorNo, s.doors[d].follows → t.doors[d].follows) : KeepsLaws s t where
  pending := h.pending
  ram := h.ram
  places := h.placesHeld
  doors := fun hc => ⟨fun d hd => (hmark d).trans (hc d (h.checks d hd)), fun hl d => hlaw d (hl d)⟩
  contacts := fun hs hr d => hfollow d (hs (by rwa [h.mode] at hr) d)
  sound := fun ⟨a, b, c⟩ => ⟨h.configSound a, h.quiet b, h.inRange c⟩
  table := h.table
  zones := h.zones

/-- A door that the assertion puts in EGRESS. -/
theorem lawful_egress {s t : State} {e : Door} (h : DoorLawful s e) (hfire : fireActive t = true)
    (hmode : t.mode.rehearsal = s.mode.rehearsal) :
    DoorLawful t (settledDoor s.mode.rehearsal .egress e.letGo) := by
  unfold settledDoor
  split
  · next hs =>
    have hs : e.state = .egress := hs
    refine doorLawful_iff.2 ⟨⟨by simp [Door.letGo, hs, hfire], by simp [Door.letGo],
      fun hm => by rw [show e.letGo.state = .egress from hs]; rfl, h.placed.rest⟩, ?_⟩
    have hcmd := h.cmd
    unfold lawfulCmd at hcmd ⊢
    rw [hmode]
    exact hcmd
  · rw [← hmode]
    exact lawful_enter h.placed.rest (by simp [hfire]) (by simp [Door.letGo]) fun _ => rfl

/-- The fire unit as an assertion leaves it, before its record. -/
def alarmed (s : State) : FireUnit :=
  let t : Stamp := if s.clock.valid then s.clock.now else ⟨0, 0⟩
  let f := { s.fire with state := .alarm, captured := some t, musterPending := true }
  if s.regs.run = .clearing then
    { f with deferred := some (t, grantCount s, s.fire.state == .hold) }
  else f

/-- An assertion of FIRE_IN up to the doors: the fire state, and the record and the event outside
CLEARING. -/
def tellFire (s : State) : State :=
  let s1 := { s with fire := alarmed s }
  if s.regs.run = .clearing then s1
  else raise .fireOn (handOver false (if s.clock.valid then s.clock.now else ⟨0, 0⟩)
    (.fireOn s.regs.run (grantCount s) (s.fire.state == .hold)) s1)

/-- An assertion ends a CLEAR_FAULT check, and every evacuation circuit starts. -/
def endFireCheck (s : State) : State :=
  if checkRuns s then endRequest .fireActive none none s else s

theorem assertFire_eq (s : State) : assertFire s =
    if s.fire.state = .alarm then s
    else forCircuits s.fire.evacMask Circuit.startEvac
      (endFireCheck (egressDoors (tellFire s))) := by
  unfold assertFire tellFire alarmed
  split
  · rfl
  · dsimp only
    by_cases h : s.regs.run = .clearing
    · simp only [if_pos h]
      rfl
    · simp only [if_neg h]
      rfl

theorem alarmed_state (s : State) : (alarmed s).state = .alarm := by
  unfold alarmed
  dsimp only
  split <;> rfl

theorem tellFire_workStep (s : State) : WorkStep { s with fire := alarmed s } (tellFire s) := by
  unfold tellFire
  dsimp only
  split
  · exact .refl _
  · exact (handOver_workStep _ _ _).trans (raise_workStep _ _)

theorem endFireCheck_workStep (s : State) : WorkStep s (endFireCheck s) := by
  unfold endFireCheck
  split
  · exact endRequest_workStep _ _ _ _
  · exact .refl s

/-- An assertion keeps the laws, and what it does not move stands. -/
structure FireStep (s t : State) : Prop extends KeepsLaws s t where
  clock : ClockStands s t
  rho : t.clock.rho = s.clock.rho

theorem assertFire_fireStep (s : State) : FireStep s (assertFire s) := by
  rw [assertFire_eq]
  split
  · exact ⟨.refl s, .refl s, rfl⟩
  have htell := tellFire_workStep s
  obtain ⟨hcount, hdoors⟩ := settleDoors_spec .egress .fire (tellFire s)
  rw [← egressDoors_eq] at hcount hdoors
  have hend := (endFireCheck_workStep (egressDoors (tellFire s))).trans
    (forCircuits_workStep s.fire.evacMask Circuit.startEvac _)
  have hall := (htell.countStep.trans hcount).trans hend.countStep
  have hmode : (tellFire s).mode.rehearsal = s.mode.rehearsal := by rw [htell.mode]
  have hdoor : ∀ d : DoorNo, (forCircuits s.fire.evacMask Circuit.startEvac
      (endFireCheck (egressDoors (tellFire s)))).doors[d] =
        settledDoor s.mode.rehearsal .egress s.doors[d].letGo := fun d => by
    rw [hend.doors, hdoors, htell.doors, hmode]
  refine ⟨hall.keepsLaws_of_fire (fun d => ?_) (fun d h => ?_) fun d h => ?_,
    fun hv => ⟨hall.valid.trans hv, hall.passed⟩, hall.rho⟩
  · rw [hdoor, settledDoor_mark]; rfl
  · rw [hdoor]
    exact lawful_egress h (by rw [hall.fireActive]; simp [fireActive, alarmed_state])
      (by rw [hall.mode])
  · rw [hdoor]
    exact follows_settledDoor _ _ h

end Sys2Proof.Machine
end

section
/-! SUPPORT. The acknowledgement of the fire, the entry to RUNNING and HALT keep the laws (R101, R155,
R177, R182). -/

namespace Sys2Proof.Machine

theorem clearFire_keepsLaws (s : State) : FireStep s (clearFire s) := by
  unfold clearFire
  split
  next halarm =>
    have hwork : WorkStep { s with fire := { s.fire with state := .hold } }
        (mapCircuits Circuit.stopEvac (raise .fireOff (report (.fireOff (capturedTime s))
          { s with fire := { s.fire with state := .hold } }))) :=
      ((report_workStep _ _).trans (raise_workStep _ _)).trans (mapCircuits_workStep _ _)
    have hfire : fireActive { s with fire := { s.fire with state := .hold } } = fireActive s := by
      simp only [fireActive, halarm]
      rfl
    refine ⟨hwork.countStep.keepsLaws_of_fire (fun d => by rw [hwork.doors]) (fun d h => ?_)
      (fun d h => by rw [hwork.doors]; exact h), fun hv => ⟨hwork.valid.trans hv, hwork.passed⟩,
      hwork.rho⟩
    rw [hwork.doors]
    exact (doorLawful_congr (hwork.fireActive.trans hfire) hwork.gatesRun (by rw [hwork.mode]) _).2 h
  · exact ⟨.refl s, .refl s, rfl⟩

/-- A door that the acknowledgement recomputes out of EGRESS. -/
theorem lawful_acknowledged {s : State} {F : FireUnit} {e : Door} (h : DoorLawful s e)
    (hhold : s.fire.state = .hold) :
    DoorLawful { s with fire := F } (recomputedDoor { s with fire := F } e) := by
  have hs : e.state = .egress := h.1.2 (by simp [fireActive, hhold])
  exact lawful_recomputedDoor (h.ungranted (by rw [hs]; decide)) h.placed.rest
    fun hi => by rw [hs] at hi; cases hi

theorem ackFire_fireStep (s : State) : FireStep s (ackFire s) := by
  unfold ackFire
  split
  next h =>
    obtain ⟨-, hhold⟩ := h
    dsimp only
    rw [recomputeDoors_eq]
    generalize hF : ({ s.fire with state := .clear } : FireUnit) = F
    have hcount : CountStep { s with fire := F }
        (mapDoors (recomputedDoor { s with fire := F }) { s with fire := F }) :=
      mapDoors_countStep _ fun e => by rw [recomputedDoor_grant]
    generalize hu : mapDoors (recomputedDoor { s with fire := F }) { s with fire := F } = u at hcount ⊢
    have hdoors : ∀ d : DoorNo, u.doors[d] = recomputedDoor { s with fire := F } s.doors[d] := fun d => by
      rw [← hu, mapDoors_door]
    have hend : WorkStep u (report (.fireAck (capturedTime s) (musterCount s) s.fire.musterPending)
        (clearMuster { u with fire := { u.fire with musterPending := false } })) :=
      (WorkStep.trans (workStep_of_fire (s := u) { u.fire with musterPending := false } rfl)
        (clearMuster_workStep _)).trans (report_workStep _ _)
    have hall := hcount.trans hend.countStep
    refine ⟨hall.keepsLaws_of_fire (fun d => ?_) (fun d hl => ?_) fun d hl => ?_,
      fun hv => ⟨hall.valid.trans hv, hall.passed⟩, hall.rho⟩
    · rw [hend.doors, hdoors, recomputedDoor_mark]
    · rw [hend.doors, hdoors]
      exact (hall.doorLawful_iff _).2 (lawful_acknowledged hl hhold)
    · rw [hend.doors, hdoors]
      exact follows_recomputedDoor hl
  · exact ⟨.refl s, .refl s, rfl⟩

/-! ### The run state set -/

/-- A run-state change with the gates stopped, the configuration kept or made invalid. -/
theorem stopped_keeps {s : State} (r : Regs) (hgates : gatesRun s = false)
    (hrun : r.run = .halted ∨ r.run = .loading)
    (hvalid : r.configValid = true → s.regs.configValid = true) : Keeps s { s with regs := r } := by
  have hstill : gatesRun { s with regs := r } = gatesRun s := by
    rw [hgates]
    rcases hrun with h | h <;> simp [gatesRun, h]
  refine { Keeps.refl s with
    places := fun ⟨a, b, c⟩ => ⟨a, b, fun _ => c hgates⟩
    doors := fun hc => ⟨hc, fun hl d => (doorLawful_congr (s := s) (t := { s with regs := r }) rfl hstill rfl _).2 (hl d)⟩
    sound := fun ⟨⟨a, b⟩, q, c⟩ => ⟨⟨fun hv => a (hvalid hv), fun hg => ?_⟩, fun hc => ?_, c⟩ }
  · rw [hstill, hgates] at hg
    cases hg
  · rcases hrun with h | h <;> · rw [show r.run = .clearing from hc] at h; cases h

/-- A door when the gates start. -/
theorem lawful_started {s : State} {e : Door} (h : DoorLawful s e) (hgates : gatesRun s = false) :
    DoorLawful (setRun .running s) (recomputedDoor (setRun .running s) e) := by
  have hnone : e.grant = none := by
    cases hg : e.grant with
    | none => rfl
    | some g =>
      have := (h.placed.grant (by rw [hg]; rfl)).2
      rw [hgates] at this
      cases this
  exact lawful_recomputedDoor hnone h.placed.rest fun _ => h.cmd

theorem recomputeDoors_setRun_keeps {s : State} (hgates : gatesRun s = false)
    (hvalid : s.regs.configValid = true) : Keeps s (recomputeDoors (setRun .running s)) := by
  rw [recomputeDoors_eq]
  have hcount : CountStep (setRun .running s)
      (mapDoors (recomputedDoor (setRun .running s)) (setRun .running s)) :=
    mapDoors_countStep _ fun e => by rw [recomputedDoor_grant]
  refine { hcount with
    places := fun ⟨a, b, _⟩ => hcount.placesHeld ⟨a, b, fun hg => ?_⟩
    doors := fun hc => ⟨fun d hd => ?_, fun hl d => ?_⟩
    contacts := fun hf hr d => ?_
    sound := fun ⟨⟨a, b⟩, q, c⟩ => ⟨⟨a, fun _ => hvalid⟩, fun hr => ?_, c⟩
    clock := fun hv => ⟨hv, le_rfl⟩ }
  · cases hg
  · rw [mapDoors_door, recomputedDoor_mark]
    exact hc d hd
  · rw [mapDoors_door]
    exact (hcount.doorLawful_iff _).2 (lawful_started (hl d) hgates)
  · rw [mapDoors_door]
    exact follows_recomputedDoor (hf hr d)
  · cases hr

theorem enterRunning_keeps {s : State} (hgates : gatesRun s = false)
    (hvalid : s.regs.configValid = true) : Keeps s (enterRunning s) :=
  (recomputeDoors_setRun_keeps hgates hvalid).trans
    ((entryDeadlines_workStep _).trans (resumeLink_workStep _)).keeps

/-- From ISOLATED the gates run on. -/
theorem setRun_running_keeps {s : State} (hrun : s.regs.run = .isolated) :
    Keeps s (setRun .running s) := by
  have hgates : gatesRun s = true := by simp [gatesRun, hrun]
  have hstill : gatesRun (setRun .running s) = gatesRun s := by rw [hgates]; rfl
  refine { Keeps.refl s with
    places := fun ⟨a, b, c⟩ => ⟨a, b, fun hg => ?_⟩
    doors := fun hc => ⟨hc, fun hl d => (doorLawful_congr (s := s) (t := setRun .running s) rfl hstill rfl _).2 (hl d)⟩
    sound := fun ⟨⟨a, b⟩, q, c⟩ => ⟨⟨a, fun _ => b hgates⟩, fun hr => ?_, c⟩ }
  · rw [hstill, hgates] at hg
    cases hg
  · cases hr

theorem runOp_keeps (s : State) : Keeps s (runOp s) := by
  unfold runOp
  split
  next hrun =>
    split
    next hvalid => exact enterRunning_keeps (by simp [gatesRun, hrun]) hvalid
    · exact .refl s
  next hrun => exact (setRun_running_keeps hrun).trans (resumeLink_workStep _).keeps
  · exact .refl s
  · exact .refl s
  · exact .refl s

/-! ### HALT -/

/-- A door that HALT leaves (R101). -/
theorem lawful_halted {s t : State} {e : Door} (h : DoorLawful s e)
    (hfire : fireActive t = fireActive s) (hmode : t.mode.rehearsal = s.mode.rehearsal) :
    DoorLawful t (settledDoor s.mode.rehearsal .inactive e.letGo) := by
  unfold settledDoor
  split
  · next hs =>
    have hs : e.state = .egress := hs
    have hlet : e.letGo.state = .egress := hs
    refine doorLawful_iff.2 ⟨⟨by rw [hlet, hfire]; exact hs ▸ h.placed.fire, by simp [Door.letGo],
      fun hm => by rw [hlet]; rfl, h.placed.rest⟩, ?_⟩
    have hcmd := h.cmd
    unfold lawfulCmd at hcmd ⊢
    rw [hmode]
    exact hcmd
  · next hs =>
    rw [← hmode]
    exact lawful_enter h.placed.rest (by simp [hfire, h.no_fire hs]) (by simp [Door.letGo]) fun _ => rfl

/-- The gates stopped, every grant ended: the laws are kept. -/
theorem CountStep.keeps_of_halt {s t : State} (h : CountStep (setRun .halted s) t)
    (hmark : ∀ d : DoorNo, t.doors[d].mark = s.doors[d].mark)
    (hnone : ∀ d : DoorNo, t.doors[d].grant = none)
    (hlaw : ∀ d : DoorNo, DoorLawful s s.doors[d] → DoorLawful t t.doors[d])
    (hfollow : ∀ d : DoorNo, s.doors[d].follows → t.doors[d].follows) : Keeps s t := by
  have hzero : grantCount t = 0 := by
    unfold grantCount
    rw [List.countP_eq_zero]
    intro e he
    obtain ⟨i, hi, rfl⟩ := List.mem_iff_getElem.1 he
    simpa using hnone ⟨i, by simpa using hi⟩
  refine { h with
    places := fun ⟨a, b, _⟩ => ?_
    doors := fun hc => ⟨fun d hd => (hmark d).trans (hc d (h.checks d hd)), fun hl d => hlaw d (hl d)⟩
    contacts := fun hs hr d => hfollow d (hs (by rwa [h.mode] at hr) d)
    sound := fun ⟨⟨a, b⟩, q, c⟩ => ⟨h.configSound ⟨a, fun hg => ?_⟩, fun hr => ?_, h.inRange c⟩
    clock := fun hv => ⟨h.valid.trans hv, h.passed⟩ }
  · obtain ⟨⟨hV, hU, -⟩, -⟩ := h.counted ⟨a, b, fun hr => by cases hr⟩
    exact ⟨hV, hU, fun _ => hzero⟩
  · cases hg
  · cases h.clearing_iff.1 hr

/-- What HALT does of the requests, before the doors. -/
def haltWork (s : State) : State := haltRequest (s.regs.run == .running) (setRun .halted s)

/-- What HALT does past the doors. -/
def haltRest (s : State) : State :=
  let s2 := dropDue (haltMuster (haltBells s))
  { s2 with link := { s2.link with pollTimer := none } }

theorem haltRest_workStep (s : State) : WorkStep s (haltRest s) := by
  refine WorkStep.trans (((haltBells_workStep s).trans (haltMuster_workStep _)).trans
    (dropDue_workStep _)) ?_
  exact workStep_of_link_request _ rfl rfl rfl rfl

theorem haltRunning_eq (s : State) : haltRunning s =
    haltRest (settleDoors .inactive .halt (haltWork (musterCut s))) := by
  rw [← haltDoors_eq]
  unfold haltRunning haltWork haltRest
  dsimp only

theorem haltRunning_keeps (s : State) : Keeps s (haltRunning s) := by
  rw [haltRunning_eq]
  refine (musterCut_workStep s).keeps.trans ?_
  generalize musterCut s = s
  have hwork : WorkStep (setRun .halted s) (haltWork s) := by
    unfold haltWork
    exact haltRequest_workStep _ _
  obtain ⟨hcount, hdoors⟩ := settleDoors_spec .inactive .halt (haltWork s)
  have hlast := haltRest_workStep (settleDoors .inactive .halt (haltWork s))
  have hall := (hwork.countStep.trans hcount).trans hlast.countStep
  have hmode : (haltWork s).mode.rehearsal = s.mode.rehearsal := by rw [hwork.mode]; rfl
  have hdoor : ∀ d : DoorNo, (haltRest (settleDoors .inactive .halt (haltWork s))).doors[d] =
      settledDoor s.mode.rehearsal .inactive s.doors[d].letGo := fun d => by
    rw [hlast.doors, hdoors, hwork.doors, hmode]
    rfl
  refine hall.keeps_of_halt (fun d => ?_) (fun d => ?_) (fun d h => ?_) fun d h => ?_
  · rw [hdoor, settledDoor_mark]; rfl
  · rw [hdoor, settledDoor_grant]; rfl
  · rw [hdoor]
    exact lawful_halted h hall.fireActive (by rw [hall.mode]; rfl)
  · rw [hdoor]
    exact follows_settledDoor _ _ h

end Sys2Proof.Machine
end

section
/-! SUPPORT. A load keeps the laws (R162 to R164): its start empties the tables, its steps read and enrol
while the gates are stopped, and its success puts a whole configuration in force at once. -/

namespace Sys2Proof.Machine

/-! ### The start of a load -/

/-- A door whose entry is replaced, its contact, its settle check and its count with it. -/
theorem lawful_reloaded {s t : State} {e f : Door} (h : DoorLawful s e)
    (hstate : f.state = e.state) (hmark : f.mark = e.mark) (hgrant : f.grant = e.grant)
    (hwanted : wantedRelay f = wantedRelay e)
    (hcmd : f.cmd = if t.mode.rehearsal = true ∧ e.state ≠ .egress then .locked else wantedRelay e)
    (hrest : f.entry.supervised = false → f.settle = none ∧ f.disagree = 0)
    (hfire : fireActive t = fireActive s) (hgates : gatesRun t = gatesRun s) : DoorLawful t f := by
  refine doorLawful_iff.2 ⟨⟨?_, ?_, ?_, hrest⟩, ?_⟩
  · rw [hstate, hfire]; exact h.placed.fire
  · rw [hstate, hgrant, hgates]; exact h.placed.grant
  · rw [hstate, hmark]; exact h.placed.mark
  · rw [hcmd, lawfulCmd, hstate, hwanted]

@[simp] theorem unload_mark (e : Door) : e.unload.mark = e.mark := by simp [Door.unload]
@[simp] theorem unload_grant (e : Door) : e.unload.grant = e.grant := by simp [Door.unload]

theorem lawful_unload {s t : State} {e : Door} (h : DoorLawful s e)
    (hmode : t.mode.rehearsal = false) (hfire : fireActive t = fireActive s)
    (hgates : gatesRun t = gatesRun s) : DoorLawful t e.unload := by
  refine lawful_reloaded h (by simp [Door.unload]) (by simp) (by simp)
    (by simp [Door.unload, wantedRelay]) ?_ (fun hsup => ?_) hfire hgates
  · rw [Door.unload, drive_cmd]
    simp [hmode]
  · exact drive_unsupervised _ _ _ (by simpa [Door.unload] using hsup) ⟨rfl, rfl⟩

theorem follows_unload (e : Door) : e.unload.follows := by
  simp [Door.unload, Door.follows]

theorem emptyTables_keeps {s : State} (hgates : gatesRun s = false)
    (hvalid : s.regs.configValid = false) : Keeps s (emptyTables s) := by
  have hdoor : ∀ d : DoorNo, (emptyTables s).doors[d] = s.doors[d].unload := fun d => by
    simp [emptyTables]
  have hgrants : grantCount (emptyTables s) = grantCount s :=
    grantCount_of_forall fun d => by rw [hdoor, unload_grant]
  refine { Keeps.refl s with
    places := fun ⟨a, b, c⟩ => ⟨by rw [hgrants]; exact a, b, by rw [hgrants]; exact c⟩
    doors := fun hc => ⟨fun d hd => ?_, fun hl d => ?_⟩
    contacts := fun _ _ d => ?_
    sound := fun ⟨_, q, c⟩ => ⟨⟨fun hv => ?_, fun hg => ?_⟩, q, c⟩
    table := tableIndexed_of_eq rfl
    zones := zonesCounted_of_eq rfl fun i => by simp [emptyTables, Zone.unload] }
  · rw [hdoor, unload_mark]
    exact hc d hd
  · rw [hdoor]
    exact lawful_unload (hl d) rfl rfl rfl
  · rw [hdoor]
    exact follows_unload _
  · rw [show s.regs.configValid = true from hv] at hvalid
    cases hvalid
  · rw [show gatesRun s = true from hg] at hgates
    cases hgates

theorem loadFailed_keeps {s : State} (hgates : gatesRun s = false) : Keeps s (loadFailed s) :=
  (stopped_keeps _ hgates (.inl rfl) fun h => by cases h).trans (raise_workStep _ _).keeps

theorem failLoad_keeps {s : State} (f : LoadFault) (hgates : gatesRun s = false) :
    Keeps s (failLoad f s) := by
  have hwrite := (writeResult_linkStep f s).workStep
  exact hwrite.keeps.trans (loadFailed_keeps (hwrite.gatesRun.trans hgates))

/-- The state in which a load has started, before its first access. -/
def loadStarted (withRun : Bool) (s : State) : State :=
  startSync (startLink (emptyTables { s with regs := { s.regs with
    run := .loading, configValid := false, runMark := withRun } }))

theorem startLoad_eq (withRun : Bool) (s : State) : startLoad withRun s =
    if s.regs.run = .halted then
      if (loadStarted withRun s).regs.setupAddr.toNat % 64 ≠ 0 then loadFailed (loadStarted withRun s)
      else
        match writeResult ⟨.inProgress, .setup, 0⟩ (loadStarted withRun s) with
        | (true, s3) => s3
        | (false, s3) => failLoad ⟨.link, .setup, 0⟩ s3
    else s := rfl

theorem loadStarted_keeps (withRun : Bool) {s : State} (hrun : s.regs.run = .halted) :
    Keeps s (loadStarted withRun s) ∧ gatesRun (loadStarted withRun s) = false := by
  have hset := stopped_keeps (s := s)
    { s.regs with run := .loading, configValid := false, runMark := withRun }
    (by simp [gatesRun, hrun]) (.inr rfl) fun h => by cases h
  have hempty := emptyTables_keeps (s := { s with regs := { s.regs with
    run := .loading, configValid := false, runMark := withRun } }) rfl rfl
  have hlink : WorkStep _ (loadStarted withRun s) := (startLink_workStep _).trans (startSync_workStep _)
  exact ⟨(hset.trans hempty).trans hlink.keeps, hlink.gatesRun⟩

theorem startLoad_keeps (withRun : Bool) (s : State) : Keeps s (startLoad withRun s) := by
  rw [startLoad_eq]
  split
  next hrun =>
    obtain ⟨hstart, hgates⟩ := loadStarted_keeps withRun hrun
    split
    · exact hstart.trans (loadFailed_keeps hgates)
    · split
      · next h => exact hstart.trans (linkStep_of_writeResult h).workStep.keeps
      · next h =>
        have hwrite := (linkStep_of_writeResult h).workStep
        exact (hstart.trans hwrite.keeps).trans (failLoad_keeps _ (hwrite.gatesRun.trans hgates))
  · exact .refl s

/-! ### The steps of a load -/

/-- The laws are kept, the gates and the validity of the clock stand, and so does `Q` once W is fixed. -/
structure LoadStep (s t : State) : Prop extends Keeps s t where
  gates : gatesRun t = gatesRun s
  valid : t.clock.valid = s.clock.valid

theorem LoadStep.refl (s : State) : LoadStep s s := ⟨.refl s, rfl, rfl⟩

theorem LoadStep.trans {s t u : State} (h : LoadStep s t) (k : LoadStep t u) : LoadStep s u :=
  ⟨h.toKeeps.trans k.toKeeps, k.gates.trans h.gates, k.valid.trans h.valid⟩

theorem WorkStep.loadStep {s t : State} (h : WorkStep s t) : LoadStep s t :=
  ⟨h.keeps, h.gatesRun, h.valid⟩

/-- With the gates stopped no place is reserved, so a W that the records fit can come into force. -/
theorem fixCapacity_keeps {s : State} {w : Nat} (hgates : gatesRun s = false)
    (hfit : queueTooLong s w = false) : LoadStep s (fixCapacity w s) := by
  refine ⟨{ Keeps.refl s with
    places := fun ⟨a, b, c⟩ => ⟨a, ?_, c⟩
    sound := fun ⟨⟨a, b⟩, q, c⟩ => ⟨⟨fun hv => ⟨(a hv).1, (a hv).2.1, rfl⟩, b⟩, q, c⟩
    table := fun h => h
    zones := fun h => h }, rfl, rfl⟩
  have hzero : s.link.reserved = 0 := a.trans (c hgates)
  have hq : s.link.queue.length ≤ Config.recordUnits - w := by simpa [queueTooLong] using hfit
  show s.link.queue.length + s.link.reserved ≤ Config.recordUnits - w
  omega

theorem openRoster_keeps {s : State} {b : SetupBlock} (hgates : gatesRun s = false)
    (hfit : queueTooLong s b.capacity = false) : LoadStep s (openRoster b s) :=
  (fixCapacity_keeps hgates hfit).trans (clearTable_workStep _).loadStep

/-- What a roster step leaves: the laws, and W in force when it has not failed before its step 2. -/
theorem rosterStep_spec {cal : Calendar} {b : SetupBlock} {s t : State} {r : Option LoadFault}
    (hgates : gatesRun s = false) (h : rosterStep cal b s = (r, t)) :
    LoadStep s t ∧ (r = none → t.table.capacity = some b.capacity) := by
  unfold rosterStep at h
  split at h
  · cases h
    exact ⟨.refl s, fun hr => by cases hr⟩
  next hfit =>
    have hopen := openRoster_keeps (b := b) hgates (by simpa using hfit)
    have henrol := enrolRoster_workStep cal b.roster b.rosterCount 0 (openRoster b s)
    split at h
    · next hroster =>
      rw [hroster] at henrol
      cases h
      exact ⟨(hopen.trans henrol.loadStep).trans (clearTable_workStep _).loadStep, fun hr => by cases hr⟩
    · next hroster =>
      rw [hroster] at henrol
      cases h
      exact ⟨hopen.trans henrol.loadStep, fun _ => henrol.capacity⟩

theorem rosterOrFix_spec {cal : Calendar} {b : SetupBlock} {s t : State} {r : Option LoadFault}
    (hgates : gatesRun s = false) (h : rosterOrFix cal b s = (r, t)) :
    LoadStep s t ∧ (r = none → t.table.capacity = none → queueTooLong t b.capacity = false) := by
  unfold rosterOrFix at h
  split at h
  · obtain ⟨hstep, hcap⟩ := rosterStep_spec hgates h
    exact ⟨hstep, fun hr hn => by rw [hcap hr] at hn; cases hn⟩
  · split at h
    · cases h
      exact ⟨.refl s, fun hr => by cases hr⟩
    · next hfit =>
      cases h
      exact ⟨.refl s, fun _ hn => by simpa [hn] using hfit⟩

/-! ### The configuration in force -/

@[simp] theorem load_mark (r : Bool) (n : DoorEntry) (e : Door) : (e.load r n).mark = e.mark := by
  simp [Door.load]
@[simp] theorem load_grant (r : Bool) (n : DoorEntry) (e : Door) : (e.load r n).grant = e.grant := by
  simp [Door.load]

theorem lawful_load {s t : State} {e : Door} {n : DoorEntry} (h : DoorLawful s e)
    (hfire : fireActive t = fireActive s) (hgates : gatesRun t = gatesRun s) :
    DoorLawful t (e.load t.mode.rehearsal n) := by
  refine lawful_reloaded h (by simp [Door.load]) (by simp) (by simp)
    (by simp [Door.load, wantedRelay]) ?_ (fun hsup => ?_) hfire hgates
  · simp [Door.load, drive_cmd]
  · have hsup : n.supervised = false := by simpa [Door.load] using hsup
    simp [Door.load, hsup]

theorem follows_load (n : DoorEntry) (e : Door) : (e.load false n).follows := by
  simp [Door.load, Door.follows]

/-- The tables and the mode of a setup block in force, before the deadlines are derived again. -/
def tablesInForce (m : Memory) (b : SetupBlock) (s : State) : State :=
  { s with
    mode := b.modeWord
    cal := loadCalendar m b
    pay := loadPay m b
    table := { s.table with capacity := some (s.table.capacity.getD b.capacity) }
    lines := s.lines.mapFinIdx fun k l _ => { l with desc := readReader m b.reader k }
    zones := s.zones.mapFinIdx fun k z _ => readZone m b.zone k z
    doors := s.doors.mapFinIdx fun k e _ => e.load b.modeWord.rehearsal (readDoor m b.door k)
    bells := { s.bells with plan := loadPlan m b }
    fire := { s.fire with evacMask := BitVec.ofNat 8 b.evacMask }
    link := { s.link with setup := some b.inForce }
    regs := { s.regs with configValid := true } }

/-- The clock set, and H at a time. -/
def clockSet (c : Clock) (passed : Nat) (s : State) : State :=
  { s with clock := c, bells := { s.bells with passed := passed } }

theorem tablesInForce_door (m : Memory) (b : SetupBlock) (s : State) (d : DoorNo) :
    (tablesInForce m b s).doors[d] = s.doors[d].load b.modeWord.rehearsal (readDoor m b.door d.val) := by
  simp [tablesInForce]

theorem tablesInForce_keeps {m : Memory} {b : SetupBlock} {s : State} {c : Clock} {passed : Nat}
    (hgates : gatesRun s = false)
    (hfit : s.table.capacity = none → queueTooLong s b.capacity = false)
    (hvalid : c.valid = true) (hrho : c.rho = s.clock.rho)
    (hrange : TimeInRange s → TimeInRange (clockSet c passed s))
    (hpassed : s.clock.valid = true → s.bells.passed ≤ passed) :
    Keeps s (clockSet c passed (tablesInForce m b s)) := by
  have hdoor : ∀ d : DoorNo, (clockSet c passed (tablesInForce m b s)).doors[d] =
      s.doors[d].load b.modeWord.rehearsal (readDoor m b.door d.val) := tablesInForce_door m b s
  have hgrants : grantCount (clockSet c passed (tablesInForce m b s)) = grantCount s :=
    grantCount_of_forall fun d => by rw [hdoor, load_grant]
  refine { Keeps.refl s with
    places := fun ⟨h1, h2, h3⟩ => ⟨by rw [hgrants]; exact h1, ?_, by rw [hgrants]; exact h3⟩
    doors := fun hc => ⟨fun d hd => ?_, fun hl d => ?_⟩
    contacts := fun _ hr d => ?_
    sound := fun ⟨_, q, hc⟩ => ⟨⟨fun _ => ⟨hvalid, rfl, rfl⟩, fun _ => rfl⟩, q, hrange hc⟩
    table := fun h => h
    zones := zonesCounted_of_eq rfl fun i => by simp [clockSet, tablesInForce, readZone]
    clock := fun hv => ⟨hvalid, hpassed hv⟩
    rho := hrho }
  · have hzero : s.link.reserved = 0 := h1.trans (h3 hgates)
    show s.link.queue.length + s.link.reserved ≤
      queueCap (clockSet c passed (tablesInForce m b s))
    cases hcap : s.table.capacity with
    | none =>
      have hq : s.link.queue.length ≤ Config.recordUnits - b.capacity := by
        simpa [queueTooLong] using hfit hcap
      simp only [queueCap, clockSet, tablesInForce, hcap, Option.getD_none]
      omega
    | some w =>
      simp only [queueCap, clockSet, tablesInForce, hcap, Option.getD_some] at h2 ⊢
      exact h2
  · rw [hdoor, load_mark]
    exact hc d hd
  · rw [hdoor]
    exact lawful_load (t := clockSet c passed (tablesInForce m b s)) (hl d) rfl rfl
  · have hr : b.modeWord.rehearsal = false := hr
    rw [hdoor, hr]
    exact follows_load _ _

end Sys2Proof.Machine
end

section
/-! SUPPORT. The success and the end of a load, its abandonment, link errors and the register window keep
the laws (R42, R162, R175, R179). -/

namespace Sys2Proof.Machine

/-! ### The success of a load -/

/-- The initial time field passes its test (R5): with no time in it the clock is valid, and else the time
is one that plant time can take. -/
theorem noTime_eq_false {s : State} {b : SetupBlock} (h : noTime s b = false) :
    (b.time = Config.allOnes → s.clock.valid = true) ∧
      (b.time ≠ Config.allOnes → b.time ≤ Config.lastSecond) := by
  unfold noTime at h
  split at h
  · next ht => exact ⟨fun _ => by simpa using h, fun hn => absurd ht hn⟩
  · next ht => exact ⟨fun he => absurd he ht, fun _ => by simpa using h⟩

theorem rederive_workStep (limit : Nat) (s : State) : WorkStep s (rederive limit s) :=
  mapIntervals_workStep _ s

/-- The configuration and the initial time in force. -/
theorem loadTime_putInForce_keeps {m : Memory} {b : SetupBlock} {s : State}
    (hgates : gatesRun s = false)
    (hfit : s.table.capacity = none → queueTooLong s b.capacity = false)
    (htime : noTime s b = false) : Keeps s (loadTime b (putInForce m b s)) := by
  obtain ⟨hvalid, hlast⟩ := noTime_eq_false htime
  have stands : s.clock.valid = true → Keeps s (putInForce m b s) := fun hv =>
    (tablesInForce_keeps (m := m) (c := s.clock) (passed := s.bells.passed) hgates hfit hv rfl
      (fun h => h) fun _ => le_rfl).trans (rederive_workStep b.inForce.openLimit _).keeps
  unfold loadTime
  split
  next hall => exact stands (hvalid hall)
  next htimed =>
    split
    next hv => exact (stands hv).trans (stepTo_workStep (target := ⟨b.time, 0⟩) .load _ (Nat.zero_lt_succ 15)).keeps
    next hv =>
      have hunset : s.clock.valid = false := by
        cases h : s.clock.valid
        · rfl
        · exact absurd h hv
      refine Keeps.trans ?_ (report_workStep _ _).keeps
      have hset := tablesInForce_keeps (m := m) (b := b) (s := s)
        (c := { s.clock with now := ⟨b.time, 0⟩, valid := true, slew := none }) (passed := b.time)
        hgates hfit rfl rfl
        (fun ⟨_, _, hr⟩ => ⟨hlast htimed, Nat.zero_lt_succ 15, hr⟩)
        fun h => by rw [hunset] at h; cases h
      exact hset.trans (rederive_workStep b.inForce.openLimit _).keeps

theorem loadTime_gates (b : SetupBlock) (s : State) :
    gatesRun (loadTime b s) = gatesRun s ∧ (loadTime b s).regs.configValid = s.regs.configValid := by
  unfold loadTime
  split
  · exact ⟨rfl, rfl⟩
  · split
    · have h := stepTo_workStep (target := ⟨b.time, 0⟩) .load s (Nat.zero_lt_succ 15)
      exact ⟨h.gatesRun, h.configValid⟩
    · have h := report_workStep (.clockStep none .load) { s with
        clock := { s.clock with now := ⟨b.time, 0⟩, valid := true, slew := none }
        bells := { s.bells with passed := b.time } }
      exact ⟨h.gatesRun, h.configValid⟩

/-- The state that a successful load ends in, before a RUN ordered with it. -/
def loadEnded (s : State) : State :=
  let s1 := raise .loadDone s
  setRun .halted { s1 with regs := { s1.regs with runMark := false } }

theorem loadDone_eq (s : State) :
    loadDone s = if s.regs.runMark then enterRunning (loadEnded s) else loadEnded s := rfl

theorem loadDone_keeps {s : State} (hgates : gatesRun s = false)
    (hvalid : s.regs.configValid = true) : Keeps s (loadDone s) := by
  have hraise := raise_workStep .loadDone s
  have hend : Keeps s (loadEnded s) := hraise.keeps.trans
    (stopped_keeps _ (hraise.gatesRun.trans hgates) (.inl rfl) id)
  rw [loadDone_eq]
  split
  · exact hend.trans (enterRunning_keeps rfl (hraise.configValid.trans hvalid))
  · exact hend

theorem succeedLoad_keeps {m : Memory} {b : SetupBlock} {s t : State} {r : Option LoadFault}
    (hgates : gatesRun s = false)
    (hfit : s.table.capacity = none → queueTooLong s b.capacity = false)
    (htime : noTime s b = false) (h : succeedLoad m b s = (r, t)) :
    Keeps s t ∧ (r ≠ none → gatesRun t = false) := by
  unfold succeedLoad at h
  split at h
  · next hwrite =>
    cases h
    have := (linkStep_of_writeResult hwrite).workStep
    exact ⟨this.keeps, fun _ => this.gatesRun.trans hgates⟩
  · next s1 hwrite =>
    cases h
    have hlink := linkStep_of_writeResult hwrite
    have hforce := loadTime_putInForce_keeps (m := m) (b := b) (s := s1)
      (hlink.workStep.gatesRun.trans hgates)
      (fun hn => by
        have := hfit (hlink.table ▸ hn)
        have hq := hlink.queue
        simp only [queueTooLong, decide_eq_false_iff_not] at this ⊢
        omega)
      (by simpa [noTime, hlink.clock] using htime)
    obtain ⟨hg, hv⟩ := loadTime_gates b (putInForce m b s1)
    refine ⟨(hlink.workStep.keeps.trans hforce).trans (loadDone_keeps (hg.trans ?_) (hv.trans rfl)),
      fun hr => absurd rfl hr⟩
    exact hlink.workStep.gatesRun.trans hgates

/-! ### The whole load -/

/-- No fault in a list of tests: none of them fails. -/
theorem firstFault_eq_none {l : List (Bool × LoadFault)} (h : firstFault l = none) :
    ∀ x ∈ l, x.1 = false := by
  induction l with
  | nil => simp
  | cons x rest ih =>
    obtain ⟨b, f⟩ := x
    cases b with
    | true => simp [firstFault] at h
    | false =>
      intro y hy
      rcases List.mem_cons.1 hy with rfl | hy
      · rfl
      · exact ih (by simpa [firstFault] using h) y hy

theorem noTime_of_firstFault {s : State} {b : SetupBlock} (h : firstFault (setupTests s b) = none) :
    noTime s b = false :=
  firstFault_eq_none h (noTime s b, ⟨.noTime, .setup, 0⟩) (by simp [setupTests])

theorem loadSteps_keeps {s t : State} {r : Option LoadFault} (hgates : gatesRun s = false)
    (h : loadSteps s = (r, t)) : Keeps s t ∧ (r ≠ none → gatesRun t = false) := by
  have failed : ∀ {u : State}, LoadStep s u → Keeps s u ∧ (r ≠ none → gatesRun u = false) :=
    fun hu => ⟨hu.toKeeps, fun _ => hu.gates.trans hgates⟩
  unfold loadSteps at h
  split at h
  · next hread =>
    cases h
    exact failed (linkStep_of_linkAccess hread).workStep.loadStep
  · next s1 hread =>
    have hread := (linkStep_of_linkAccess hread).workStep.loadStep
    dsimp only at h
    split at h
    · cases h
      exact failed hread
    · next hnone =>
      have htables := readEntries_workStep (allReads s1.ram (readSetup s1.ram s1.regs.setupAddr)) s1
      split at h
      · next hentries =>
        rw [hentries] at htables
        cases h
        exact failed (hread.trans htables.loadStep)
      · next s2 hentries =>
        rw [hentries] at htables
        have htables := hread.trans htables.loadStep
        split at h
        · next hroster =>
          cases h
          exact failed (htables.trans (rosterOrFix_spec (htables.gates.trans hgates) hroster).1)
        · next s3 hroster =>
          obtain ⟨hstep, hfit⟩ := rosterOrFix_spec (htables.gates.trans hgates) hroster
          have hall := htables.trans hstep
          have htime : noTime s3 (readSetup s1.ram s1.regs.setupAddr) = false := by
            have := noTime_of_firstFault hnone
            unfold noTime at this ⊢
            rwa [hall.valid, ← hread.valid]
          obtain ⟨hkeep, hgate⟩ := succeedLoad_keeps (hall.gates.trans hgates) (hfit rfl) htime h
          exact ⟨hall.toKeeps.trans hkeep, hgate⟩

theorem completeLoad_keeps {s t : State} {r : Option LoadFault} (hgates : gatesRun s = false)
    (h : completeLoad s = (r, t)) : Keeps s t := by
  unfold completeLoad at h
  split at h
  · next hsteps =>
    cases h
    obtain ⟨hkeep, hgate⟩ := loadSteps_keeps hgates hsteps
    exact hkeep.trans (failLoad_keeps _ (hgate (by simp)))
  · next hsteps =>
    cases h
    exact (loadSteps_keeps hgates hsteps).1

/-! ### HALT during a load, and HALT in each run state -/

theorem abandonLoad_keeps (rosterBegun : Bool) {s : State} (hgates : gatesRun s = false) :
    Keeps s (abandonLoad rosterBegun s) := by
  unfold abandonLoad
  dsimp only
  split
  · next h =>
    have hfit : queueTooLong s (readSetup s.ram s.regs.setupAddr).capacity = false := by
      have hreach : reachesRoster s = true := by simp at h; exact h.2
      simp only [reachesRoster, Bool.and_eq_true, Bool.not_eq_true'] at hreach
      exact hreach.2
    have hopen := openRoster_keeps hgates hfit
    exact hopen.toKeeps.trans (stopped_keeps _ (hopen.gates.trans hgates) (.inl rfl) fun h => by cases h)
  · exact stopped_keeps _ hgates (.inl rfl) fun h => by cases h

theorem haltOp_keeps (rosterBegun : Bool) (s : State) : Keeps s (haltOp rosterBegun s) := by
  unfold haltOp
  split
  · exact .refl s
  · exact .refl s
  next hrun => exact abandonLoad_keeps _ (by simp [gatesRun, hrun])
  · exact haltRunning_keeps s
  · exact haltRunning_keeps s

/-! ### The register window -/

theorem pollOnce_keeps (s : State) : Keeps s (pollOnce s) := (pollOnce_workStep s).keeps

theorem Keeps.fireStep {s t : State} (h : Keeps s t) : FireStep s t := ⟨h.toKeepsLaws, h.clock, h.rho⟩

theorem FireStep.trans {s t u : State} (h : FireStep s t) (k : FireStep t u) : FireStep s u :=
  ⟨h.toKeepsLaws.trans k.toKeepsLaws, h.clock.trans k.clock, k.rho.trans h.rho⟩

/-- The commands of a CTL write ahead of its ACKFIRE (R179). -/
def ctlBefore (v : Word) (s : State) : State :=
  let s1 :=
    if v.getLsbD 1 then startLoad (v.getLsbD 2) s
    else if v.getLsbD 2 then runOp s
    else s
  if v.getLsbD 3 then pollOnce s1 else s1

theorem ctlWrite_eq (v : Word) (s : State) : ctlWrite v s =
    if v.getLsbD 0 then haltOp false s
    else if v.getLsbD 4 then ackFire (ctlBefore v s) else ctlBefore v s := rfl

theorem ctlBefore_keeps (v : Word) (s : State) : Keeps s (ctlBefore v s) := by
  have hcmd : Keeps s (if v.getLsbD 1 then startLoad (v.getLsbD 2) s
      else if v.getLsbD 2 then runOp s else s) := by
    split
    · exact startLoad_keeps _ s
    · split
      · exact runOp_keeps s
      · exact .refl s
  unfold ctlBefore
  dsimp only
  split
  · exact hcmd.trans (pollOnce_keeps _)
  · exact hcmd

theorem ctlWrite_fireStep (v : Word) (s : State) : FireStep s (ctlWrite v s) := by
  rw [ctlWrite_eq]
  split
  · exact (haltOp_keeps _ s).fireStep
  · split
    · exact (ctlBefore_keeps v s).fireStep.trans (ackFire_fireStep _)
    · exact (ctlBefore_keeps v s).fireStep

/-- An update of the registers beside the run state, the configuration and the event flags. -/
theorem workStep_of_regs {s : State} (r : Regs) (hrun : r.run = s.regs.run)
    (hvalid : r.configValid = s.regs.configValid)
    (hevents : s.regs.run = .clearing → s.regs.events = 0 → r.events = 0) :
    WorkStep s { s with regs := r } :=
  { WorkStep.refl s with
    run := .inl hrun
    configValid := hvalid
    quiet := fun h hc => by
      have hc : r.run = .clearing := hc
      obtain ⟨hq, he⟩ := h (hrun ▸ hc)
      exact ⟨hq, hevents (hrun ▸ hc) he⟩ }

theorem writeRegister_fireStep (offset : Nat) (v : Word) (s : State) :
    FireStep s (writeRegister offset v s) := by
  unfold writeRegister
  split
  · exact ctlWrite_fireStep v s
  split
  · split
    · exact (workStep_of_regs { s.regs with setupAddr := v } rfl rfl fun _ h => h).keeps.fireStep
    · exact (Keeps.refl s).fireStep
  split
  · exact (clearEvents_workStep v s).keeps.fireStep
  split
  · exact (workStep_of_regs { s.regs with eventEn := v.setWidth 12 } rfl rfl fun _ h => h).keeps.fireStep
  split
  · exact (workStep_of_regs { s.regs with eventLine := v.setWidth 12 } rfl rfl fun _ h => h).keeps.fireStep
  · exact (Keeps.refl s).fireStep

/-! ### Clear done and link errors -/

theorem clearDoneOp_keeps (s : State) : Keeps s (clearDoneOp s) := by
  unfold clearDoneOp
  split
  next hrun =>
    have hhalt : Keeps s (setRun .halted s) :=
      stopped_keeps _ (by simp [gatesRun, hrun]) (.inl rfl) id
    dsimp only
    split
    · refine hhalt.trans (WorkStep.keeps ?_)
      refine WorkStep.trans (WorkStep.trans ?_ (handOver_workStep _ _ _)) (raise_workStep _ _)
      exact workStep_of_fire (s := setRun .halted s) { s.fire with deferred := none } rfl
    · exact hhalt
  · exact .refl s

theorem failAfter_workStep (n : Nat) (s : State) : WorkStep s (failAfter n s) :=
  (linkStep_of_answers s _).workStep

theorem loadMeetsError_keeps (n : Nat) {s : State} (hgates : gatesRun s = false) :
    Keeps s (loadMeetsError n s) := by
  have hfail := failAfter_workStep n s
  unfold loadMeetsError
  split
  · next h => exact hfail.keeps.trans (completeLoad_keeps (hfail.gatesRun.trans hgates) h)
  · exact .refl s

theorem linkErrorOp_keeps (e : LinkFault) (s : State) : Keeps s (linkErrorOp e s) := by
  have hlink : Keeps s (linkFail s) := (linkFail_linkStep s).workStep.keeps
  unfold linkErrorOp
  split
  · unfold errorInFlight
    split
    · next hrun => exact loadMeetsError_keeps _ (by simp [gatesRun, hrun])
    · unfold runningMeetsError
      split
      · exact ((failAfter_workStep _ s).trans (finishMuster_workStep _)).keeps
      · exact hlink
    · split
      · exact hlink
      · exact .refl s
    · exact .refl s
    · exact .refl s
  · exact (linkStep_of_answers s _).workStep.keeps

end Sys2Proof.Machine
end

section
/-! CERTIFICATE. Every command keeps the laws of the whole part, and so does every step (chapters 1, 2, 4,
5, 8, 9, 10 and 11). -/

namespace Sys2Proof.Machine

/-! ### Requests at the doors -/

theorem carryOut_keeps {r : Req} {notify : Bool} {f : State → State} (hf : ∀ s, Keeps s (f s))
    (s : State) : Keeps s (carryOut r notify f s) := by
  unfold carryOut
  split
  · exact (beginRequest_workStep r notify s).keeps.trans (hf _)
  · exact .refl s

theorem carryOut_clearFault_keeps (door : Nat) (notify : Bool) (s : State) :
    Keeps s (carryOut (.clearFault door) notify (takeClearFault door) s) := by
  unfold carryOut
  split
  · refine (beginRequest_workStep _ notify s).keeps.trans (takeClearFault_keeps fun q hq => ?_)
    cases hq
    rfl
  · exact .refl s

/-! ### The reset -/

/-- The state at the release of RESET_N, before an asserted FIRE_IN is accepted. -/
def released (circuits : DoorPins) (s : State) : State :=
  { State.reset with
    doors := Vector.ofFn fun d => Door.powerUp (circuits.getLsbD d.val)
    ram := s.ram
    linkAnswers := s.linkAnswers
    pending := s.pending }

theorem hardResetOp_eq (circuits : DoorPins) (fire : Bool) (s : State) :
    hardResetOp circuits fire s =
      if fire then assertFire (released circuits s) else released circuits s := rfl

theorem released_door (circuits : DoorPins) (s : State) (d : DoorNo) :
    (released circuits s).doors[d] = Door.powerUp (circuits.getLsbD d.val) := by
  simp [released]

theorem lawful_powerUp (closed : Bool) : DoorLawful State.reset (Door.powerUp closed) := by
  unfold DoorLawful
  cases closed <;> decide

theorem released_keepsLaws (circuits : DoorPins) (s : State) : KeepsLaws s (released circuits s) := by
  obtain ⟨-, ⟨hV, hU, hG⟩, -, -, -, hconfig, hquiet, htime, htable, hzones⟩ := resetStateIsLawful
  have hgrants : grantCount (released circuits s) = 0 := by
    refine (grantCount_of_forall (s := State.reset) fun d => ?_).trans (by decide)
    rw [released_door]
    simp [State.reset, Door.powerUp, Door.reset]
  exact
    { pending := rfl
      ram := fun h => h
      places := fun _ => ⟨hgrants.symm, hU, fun _ => hgrants⟩
      doors := fun _ => ⟨fun d hd => absurd hd (by simp [checksDoor, released, State.reset, Link.reset]),
        fun _ d => by rw [released_door]; exact lawful_powerUp _⟩
      contacts := fun _ _ d => by rw [released_door]; rfl
      sound := fun _ => ⟨hconfig, hquiet, htime⟩
      table := fun _ => htable
      zones := fun _ => hzones }

theorem hardResetOp_keepsLaws (circuits : DoorPins) (fire : Bool) (s : State) :
    KeepsLaws s (hardResetOp circuits fire s) := by
  rw [hardResetOp_eq]
  split
  · exact (released_keepsLaws circuits s).trans (assertFire_fireStep _).toKeepsLaws
  · exact released_keepsLaws circuits s

/-! ### Every command -/

/-- The commands that may move the fire state or the rate term. -/
def Instr.movesState : Instr → Bool
  | .hardReset _ _ | .syncMark | .ackfire | .registerWrite _ _ _ | .fireOn | .fireOff => true
  | _ => false

theorem execLoadComplete_keeps (host : HostWrites) (s : State) :
    Keeps s (if s.regs.run = .loading then (completeLoad (s.hostWrites host)).2
      else s.hostWrites host) := by
  have hhost := hostWrites_workStep host s
  split
  next hrun =>
    exact hhost.keeps.trans (completeLoad_keeps (r := (completeLoad (s.hostWrites host)).1)
      (hhost.gatesRun.trans (by simp [gatesRun, hrun])) rfl)
  · exact hhost.keeps

theorem execRexPress_keeps (door : DoorNo) (s : State) :
    Keeps s (if s.mode.rehearsal then s else pressRex door s) := by
  split
  · exact .refl s
  · exact pressRex_keeps door s

/-- Every other command keeps the laws, the fire state and the rate term. -/
theorem exec_keeps {s t : State} : ∀ {c : Instr}, Instr.movesState c = false → exec c s = .next t →
    Keeps s t
  | .clearDone, _, rfl => clearDoneOp_keeps s
  | .beatEnd r, _, rfl => beatEnds_keeps r s
  | .slewEnd, _, rfl => (endSlew_workStep s).keeps
  | .holdoverExpiry, _, rfl => (endHoldover_workStep s).keeps
  | .halt r, _, rfl => haltOp_keeps r s
  | .load w host, _, rfl => (hostWrites_workStep host s).keeps.trans (startLoad_keeps w _)
  | .loadComplete host, _, rfl => execLoadComplete_keeps host s
  | .run host, _, rfl => (hostWrites_workStep host s).keeps.trans (runOp_keeps _)
  | .nudge host, _, rfl => (hostWrites_workStep host s).keeps.trans (pollOnce_keeps _)
  | .eventsClear v, _, rfl => (clearEvents_workStep v s).keeps
  | .poll host, _, rfl => (hostWrites_workStep host s).keeps.trans (pollOnce_keeps _)
  | .enrol _ p, _, rfl => (carryOut_workStep (takeEnrol_workStep p) s).keeps
  | .amend _ p, _, rfl => (carryOut_workStep (takeAmend_workStep p) s).keeps
  | .withdraw _ slot force out, _, rfl =>
    (carryOut_workStep (takeWithdraw_workStep slot force out) s).keeps
  | .withdrawDeferredResume, _, rfl => (serveWithdraw_workStep s).keeps
  | .relocate _ slot zone, _, rfl => (carryOut_workStep (takeRelocate_workStep slot zone) s).keeps
  | .forgive _, _, rfl => (carryOut_workStep takeForgive_workStep s).keeps
  | .statement _ first last _ out, _, rfl =>
    (carryOut_workStep (takeStatement_workStep first last out) s).keeps
  | .statementCopy, _, rfl => (nextCopy_workStep s).keeps
  | .readStatus _ out, _, rfl => (carryOut_workStep (takeReadStatus_workStep out) s).keeps
  | .outputWriteDone, _, rfl => (writeHeld_workStep s).keeps
  | .setTime _ sec, _, rfl => (carryOut_workStep (takeSetTime_workStep sec) s).keeps
  | .calSet _ day type, _, rfl => (carryOut_workStep (takeCalSet_workStep day type) s).keeps
  | .calClear _ day, _, rfl => (carryOut_workStep (takeCalClear_workStep day) s).keeps
  | .zoneSet _ zone present ceiling capacity, _, rfl =>
    (carryOut_workStep (takeZoneSet_workStep zone present ceiling capacity) s).keeps
  | .doorMode _ door mode, _, rfl => carryOut_keeps (takeDoorMode_keeps door mode) s
  | .doorPulse _ door duration, _, rfl => carryOut_keeps (takeDoorPulse_keeps door duration) s
  | .clearFault n door, _, rfl => carryOut_clearFault_keeps door n s
  | .ring _ mask pattern duration, _, rfl =>
    (carryOut_workStep (takeRing_workStep mask pattern duration) s).keeps
  | .inject _ p, _, rfl => carryOut_keeps (takeInject_keeps p) s
  | .linkError e, _, rfl => linkErrorOp_keeps e s
  | .frameEnd line b framing last, _, rfl => (frameEnds_workStep line b framing last s).keeps
  | .readerOffline line, _, rfl => (lineEnds_workStep line s).keeps
  | .presentation line p, _, rfl => takeFromLine_keeps line p s
  | .contactChange door closed, _, rfl => changeCircuit_keeps door closed s
  | .releaseExpiry door, _, rfl => releaseEnds_keeps door s
  | .heldExpiry door, _, rfl => heldEnds_keeps door s
  | .settleCheck door, _, rfl => settleEnds_keeps door s
  | .driftFinding door, _, rfl => driftFound_keeps door s
  | .deadlineReached, _, rfl => (firstDeadline_workStep s).keeps
  | .waitingClosingServed, _, rfl => (serveClosing_workStep s).keeps
  | .bellEntryReached, _, rfl => (firstEntry_workStep s).keeps
  | .soundingEnd circuit, _, rfl => (modCircuit_workStep circuit Circuit.ended s).keeps
  | .musterWriteStart, _, rfl => (startMuster_workStep s).keeps
  | .musterWriteDone, _, rfl => (finishMuster_workStep s).keeps
  | .syncMarkLeadingEdge quiet, _, rfl => (markEdge_workStep quiet s).keeps
  | .rexPress door, _, rfl => execRexPress_keeps door s

theorem execRegisterWrite_fireStep (offset width : Nat) (v : Word) (s : State) :
    FireStep s (if s.regs.run = .clearing ∨ width ≠ 32 then s else writeRegister offset v s) := by
  split
  · exact (Keeps.refl s).fireStep
  · exact writeRegister_fireStep offset v s

/-- Every command keeps the laws. -/
theorem exec_keepsLaws {s t : State} {c : Instr} (h : exec c s = .next t) : KeepsLaws s t := by
  cases hc : Instr.movesState c with
  | false => exact (exec_keeps hc h).toKeepsLaws
  | true =>
    match c, hc, h with
    | .hardReset circuits fire, _, rfl => exact hardResetOp_keepsLaws circuits fire s
    | .syncMark, _, rfl => exact (acceptMark_markStep s).toKeepsLaws
    | .ackfire, _, rfl => exact (ackFire_fireStep s).toKeepsLaws
    | .registerWrite offset width v, _, rfl =>
      exact (execRegisterWrite_fireStep offset width v s).toKeepsLaws
    | .fireOn, _, rfl => exact (assertFire_fireStep s).toKeepsLaws
    | .fireOff, _, rfl => exact (clearFire_keepsLaws s).toKeepsLaws

/-- Every step keeps the laws beside the queue that it takes its command from. -/
theorem step_keepsLaws {s t : State} (h : step s = .next t) :
    KeepsLaws { s with pending := s.pending.tail } t := by
  unfold step at h
  split at h
  next hp =>
    cases h
    rw [hp]
    exact { KeepsLaws.refl s with pending := hp }
  next c rest hp =>
    rw [hp]
    exact exec_keepsLaws h

/-! ### The obligations -/

/-- Settles O2: each command's relation to its next state says so. -/
theorem commandsKeepTheQueue : Obligations.CommandsKeepTheQueue :=
  fun _ _ _ h => (exec_keepsLaws h).pending

/-- Settles O4: every command keeps the canonical form, memory writes by `writeBytes_wf`. -/
theorem everyStepKeepsRamCanonical : Obligations.EveryStepKeepsRamCanonical :=
  fun _ _ hs h => (step_keepsLaws h).ram hs

/-- Settles O5: a grant takes its place when it is made, and gives it to its record when it ends. -/
theorem everyStepKeepsPlacesHeld : Obligations.EveryStepKeepsPlacesHeld :=
  fun _ _ hs h => (step_keepsLaws h).places hs

/-- Settles O6: an update of one door is lawful by its own lemma; those of every door at once, by what
they make of the fire state and the gates. -/
theorem everyStepKeepsDoorsLawful : Obligations.EveryStepKeepsDoorsLawful :=
  fun _ _ hs h => (step_keepsLaws h).doors hs

/-- Settles O7: a contact event outside rehearsal comes from its circuit alone. -/
theorem everyStepKeepsContactsFollowing : Obligations.EveryStepKeepsContactsFollowing :=
  fun _ _ hs h => (step_keepsLaws h).contacts hs

/-- Settles O8: the gates start, and a configuration comes into force, at the two places that test it. -/
theorem everyStepKeepsRunStateSound : Obligations.EveryStepKeepsRunStateSound :=
  fun _ _ hs h => (step_keepsLaws h).sound hs

/-- Settles O9: enrolment, amendment and withdrawal change the table and its index together. -/
theorem everyStepKeepsTableIndexed : Obligations.EveryStepKeepsTableIndexed :=
  fun _ _ hs h => (step_keepsLaws h).table hs

/-- Settles O10: each move of a worker counts out of one zone and into the other. -/
theorem everyStepKeepsZonesCounted : Obligations.EveryStepKeepsZonesCounted :=
  fun _ _ hs h => (step_keepsLaws h).zones hs

end Sys2Proof.Machine
end

section
/-! CERTIFICATE. The clock's own rules and the events of the fire state (1.1, 1.2, 8.2, 9.1). -/

namespace Sys2Proof.Machine

/-- A command that is no hard reset keeps the clock's own rules. -/
theorem exec_clock {s t : State} {c : Instr}
    (hc : ∀ (circuits : DoorPins) (fire : Bool), c ≠ .hardReset circuits fire)
    (h : exec c s = .next t) :
    ClockStands s t ∧ (c ≠ .syncMark → t.clock.rho = s.clock.rho) ∧
      (TimeInRange s → (t.clock.rho - s.clock.rho).natAbs ≤ 1) := by
  have stands : FireStep s t → ClockStands s t ∧ (c ≠ .syncMark → t.clock.rho = s.clock.rho) ∧
      (TimeInRange s → (t.clock.rho - s.clock.rho).natAbs ≤ 1) :=
    fun k => ⟨k.clock, fun _ => k.rho, fun _ => by rw [k.rho]; simp⟩
  cases hm : Instr.movesState c with
  | false => exact stands (exec_keeps hm h).fireStep
  | true =>
    match c, hm, h with
    | .hardReset circuits fire, _, _ => exact absurd rfl (hc circuits fire)
    | .syncMark, _, rfl =>
      have k := acceptMark_markStep s
      exact ⟨k.clock, fun hn => absurd rfl hn, k.rho⟩
    | .ackfire, _, rfl => exact stands (ackFire_fireStep s)
    | .registerWrite offset width v, _, rfl => exact stands (execRegisterWrite_fireStep offset width v s)
    | .fireOn, _, rfl => exact stands (assertFire_fireStep s)
    | .fireOff, _, rfl => exact stands (clearFire_keepsLaws s)

/-- Settles O11: the rate term is written in a processed mark alone, by `nudgeRho`. -/
theorem clockMovesByItsRules : Obligations.ClockMovesByItsRules :=
  fun _ _ _ hc h => exec_clock hc h

/-! ### The fire state -/

theorem assertFire_state (s : State) : (assertFire s).fire.state = .alarm := by
  rw [assertFire_eq]
  split
  · assumption
  · obtain ⟨hcount, -⟩ := settleDoors_spec .egress .fire (tellFire s)
    rw [← egressDoors_eq] at hcount
    have hend := ((endFireCheck_workStep (egressDoors (tellFire s))).trans
      (forCircuits_workStep s.fire.evacMask Circuit.startEvac _)).toSideStep
    rw [(((tellFire_workStep s).toSideStep.trans hcount.toSideStep).trans hend).fireState]
    exact alarmed_state s

theorem clearFire_state (s : State) : (clearFire s).fire.state = s.fire.state ∨
    (s.fire.state = .alarm ∧ (clearFire s).fire.state = .hold) := by
  unfold clearFire
  split
  next h =>
    refine .inr ⟨h, ?_⟩
    exact (((report_workStep _ _).trans (raise_workStep _ _)).trans (mapCircuits_workStep _ _)).fireState
  · exact .inl rfl

theorem ackFire_state (s : State) : (ackFire s).fire.state = s.fire.state ∨
    (s.regs.run ≠ .clearing ∧ s.fire.state = .hold ∧ (ackFire s).fire.state = .clear) := by
  unfold ackFire
  split
  next h =>
    obtain ⟨hrun, hhold⟩ := h
    refine .inr ⟨hrun, hhold, ?_⟩
    dsimp only
    rw [recomputeDoors_eq]
    exact ((clearMuster_workStep _).trans (report_workStep _ _)).fireState
  · exact .inl rfl

/-- A register write moves the fire state by the ACKFIRE of a CTL write alone. -/
theorem writeRegister_state (offset : Nat) (v : Word) (s : State) :
    (writeRegister offset v s).fire.state = s.fire.state ∨
    (offset = 0 ∧ v.getLsbD 4 = true ∧ v.getLsbD 0 = false ∧ s.fire.state = .hold ∧
      (writeRegister offset v s).fire.state = .clear) := by
  unfold writeRegister
  split
  next hoff =>
    rw [ctlWrite_eq]
    split
    · exact .inl (haltOp_keeps _ s).fireState
    next h0 =>
      have hbefore := (ctlBefore_keeps v s).fireState
      split
      next h4 =>
        rcases ackFire_state (ctlBefore v s) with h | ⟨-, hhold, hclear⟩
        · exact .inl (h.trans hbefore)
        · exact .inr ⟨hoff, h4, by simpa using h0, hbefore ▸ hhold, hclear⟩
      · exact .inl hbefore
  split
  · split <;> exact .inl rfl
  split
  · exact .inl (clearEvents_workStep v s).fireState
  split
  · exact .inl rfl
  · split <;> exact .inl rfl

/-- FIRE_OFF with the fire in ALARM. -/
theorem exec_fireOff_alarm {s : State} (h : s.fire.state = .alarm) : exec .fireOff s = .next
    (mapCircuits Circuit.stopEvac (raise .fireOff (report (.fireOff (s.fire.captured.getD ⟨0, 0⟩))
      { s with fire := { s.fire with state := .hold } }))) :=
  congrArg Host.Outcome.next (if_pos h)

theorem stopEvac_eq (c : Circuit) : c.stopEvac = if c.isEvac = true then .idle else c := by
  cases c <;> rfl

/-- A record and an event leave the circuits. -/
theorem mapCircuits_raise_report (f : Circuit → Circuit) (e : Event) (b : RecordBody) (s : State) :
    mapCircuits f (raise e (report b s)) =
      { raise e (report b s) with bells := { s.bells with circuits := s.bells.circuits.map f } } := by
  have hbells : (raise e (report b s)).bells = s.bells :=
    ((report_linkOnly b s).trans (raise_linkOnly e _)).bells
  unfold mapCircuits
  rw [hbells]

theorem report_clearing {s : State} (h : s.regs.run = .clearing) (b : RecordBody) : report b s = s :=
  handOver_clearing h false _ b

theorem exec_state {c : Instr} {s t : State} (h : exec c s = .next t) :
    t.fire.state = s.fire.state ∨
    (c = .fireOn ∧ t.fire.state = .alarm) ∨
    (c = .fireOff ∧ s.fire.state = .alarm ∧ t.fire.state = .hold) ∨
    ((c = .ackfire ∨
        ∃ v : Word, c = .registerWrite 0 32 v ∧ v.getLsbD 4 = true ∧ v.getLsbD 0 = false) ∧
      s.regs.run ≠ .clearing ∧ s.fire.state = .hold ∧ t.fire.state = .clear) ∨
    ∃ (circuits : DoorPins) (fire : Bool), c = .hardReset circuits fire := by
  cases hm : Instr.movesState c with
  | false => exact .inl (exec_keeps hm h).fireState
  | true =>
    match c, hm, h with
    | .hardReset circuits fire, _, _ => exact .inr (.inr (.inr (.inr ⟨circuits, fire, rfl⟩)))
    | .syncMark, _, rfl => exact .inl (acceptMark_markStep s).fireState
    | .ackfire, _, rfl =>
      rcases ackFire_state s with h | h
      · exact .inl h
      · exact .inr (.inr (.inr (.inl ⟨.inl rfl, h⟩)))
    | .registerWrite offset width v, _, rfl =>
      by_cases hw : s.regs.run = .clearing ∨ width ≠ 32
      · rw [if_pos hw]
        exact .inl rfl
      · rw [if_neg hw]
        obtain ⟨hrun, hwidth⟩ := not_or.1 hw
        rcases writeRegister_state offset v s with h | ⟨hoff, h4, h0, hhold, hclear⟩
        · exact .inl h
        · refine .inr (.inr (.inr (.inl ⟨.inr ⟨v, ?_, h4, h0⟩, hrun, hhold, hclear⟩)))
          rw [hoff, not_not.1 hwidth]
    | .fireOn, _, rfl => exact .inr (.inl ⟨rfl, assertFire_state s⟩)
    | .fireOff, _, rfl =>
      rcases clearFire_state s with h | h
      · exact .inl h
      · exact .inr (.inr (.inl ⟨rfl, h⟩))

/-- Settles O12: `exec_state` for the first half, and the two arms of `clearFire` for the second. -/
theorem fireStateMovesOnlyAtItsEvents : Obligations.FireStateMovesOnlyAtItsEvents := by
  refine ⟨fun c s t h => exec_state h, fun s => ⟨fun h => congrArg Host.Outcome.next (if_neg h), fun h => ?_⟩⟩
  refine ⟨s.bells.circuits.map Circuit.stopEvac, ?_, fun hc => ?_, fun k => ?_⟩
  · rw [exec_fireOff_alarm h, mapCircuits_raise_report]
  · rw [exec_fireOff_alarm h, mapCircuits_raise_report, raise_clearing, report_clearing]
    · exact hc
    · rw [report_clearing (by exact hc)]
      exact hc
  · rw [← stopEvac_eq]
    simp

end Sys2Proof.Machine
end

section
/-! CERTIFICATE. Hard reset (11.2, 9.1). -/

namespace Sys2Proof.Machine

/-! ### Every door, no grant standing -/

/-- With no grant standing nothing lapses. -/
theorem forDoors_lapse_none {s : State} (h : ∀ d : DoorNo, s.doors[d].grant = none) (c : LapseCause) :
    forDoors (fun d s => lapseGrant d c s) s = s := by
  have hfold : ∀ l : List DoorNo, l.foldl (fun s d => lapseGrant d c s) s = s := by
    intro l
    induction l with
    | nil => rfl
    | cons d rest ih => rw [List.foldl_cons, lapseGrant_none (h d), ih]
  exact hfold allDoors

theorem egressDoors_of_none {s : State} (h : ∀ d : DoorNo, s.doors[d].grant = none) :
    egressDoors s = mapDoors (settledDoor s.mode.rehearsal .egress) s := by
  rw [egressDoors_eq, settleDoors, forDoors_lapse_none h]

/-! ### Every circuit of a mask -/

theorem modCircuit_circuit (c k : CircuitNo) (f : Circuit → Circuit) (s : State) :
    (modCircuit c f s).bells.circuits[k] =
      if k = c then f s.bells.circuits[k] else s.bells.circuits[k] := by
  by_cases h : k = c
  · subst h
    rw [if_pos rfl, modCircuit_same]
  · rw [if_neg h, modCircuit_other c k (Ne.symm h)]

theorem foldl_modCircuit_circuit (p : CircuitNo → Bool) (f : Circuit → Circuit) (k : CircuitNo) :
    ∀ (l : List CircuitNo) (s : State), l.Nodup →
      (l.foldl (fun s c => if p c then modCircuit c f s else s) s).bells.circuits[k] =
        if k ∈ l ∧ p k then f s.bells.circuits[k] else s.bells.circuits[k]
  | [], _, _ => by simp
  | c :: rest, s, h => by
    rw [List.nodup_cons] at h
    rw [List.foldl_cons, foldl_modCircuit_circuit p f k rest _ h.2]
    by_cases e : k = c
    · subst e
      by_cases hm : p k = true
      · rw [if_neg fun x => h.1 x.1, if_pos hm, modCircuit_same, if_pos ⟨List.mem_cons_self, hm⟩]
      · rw [if_neg fun x => h.1 x.1, if_neg hm, if_neg fun x => hm x.2]
    · have hk : (if p c then modCircuit c f s else s).bells.circuits[k] =
          s.bells.circuits[k] := by
        split
        · rw [modCircuit_circuit, if_neg e]
        · rfl
      rw [hk]
      simp [e]

theorem foldl_modCircuit_eq (p : CircuitNo → Bool) (f : Circuit → Circuit) :
    ∀ (l : List CircuitNo) (s : State),
      l.foldl (fun s c => if p c then modCircuit c f s else s) s =
        { s with bells := { s.bells with circuits :=
          (l.foldl (fun s c => if p c then modCircuit c f s else s) s).bells.circuits } }
  | [], _ => rfl
  | c :: rest, s => by
    rw [List.foldl_cons, foldl_modCircuit_eq p f rest]
    split <;> rfl

theorem mem_allCircuits (c : CircuitNo) : c ∈ allCircuits := by decide +revert

/-- What a mask's circuits become. -/
theorem forCircuits_circuit (mask : BitVec 8) (f : Circuit → Circuit) (s : State) (k : CircuitNo) :
    (forCircuits mask f s).bells.circuits[k] =
      if mask.getLsbD k.val then f s.bells.circuits[k] else s.bells.circuits[k] := by
  rw [forCircuits, foldl_modCircuit_circuit (fun c => mask.getLsbD c.val) f k allCircuits s (by decide)]
  simp [mem_allCircuits]

theorem forCircuits_eq (mask : BitVec 8) (f : Circuit → Circuit) (s : State) :
    forCircuits mask f s =
      { s with bells := { s.bells with circuits := (forCircuits mask f s).bells.circuits } } :=
  foldl_modCircuit_eq (fun c => mask.getLsbD c.val) f allCircuits s

/-! ### Hard reset -/

theorem released_ungranted (circuits : DoorPins) (s : State) (d : DoorNo) :
    (released circuits s).doors[d].grant = none := by
  rw [released_door]
  rfl

/-- The fire unit in ALARM at the release. -/
def releasedInAlarm (circuits : DoorPins) (s : State) : State :=
  { released circuits s with fire := alarmed (released circuits s) }

theorem tellFire_released (circuits : DoorPins) (s : State) :
    tellFire (released circuits s) = releasedInAlarm circuits s := by
  unfold tellFire
  exact if_pos rfl

/-- The state after an assertion accepted at the release of RESET_N. -/
theorem assertFire_released (circuits : DoorPins) (s : State) :
    assertFire (released circuits s) =
      forCircuits 255 Circuit.startEvac
        (mapDoors (settledDoor false .egress) (releasedInAlarm circuits s)) := by
  rw [assertFire_eq, if_neg (fun h => by cases h), tellFire_released,
    egressDoors_of_none (s := releasedInAlarm circuits s) fun d => released_ungranted circuits s d]
  rfl

/-- Settles O13: the reset values are those of `State.reset`, and an assertion at the release acts on
doors without grants. -/
theorem hardResetGivesResetValues : Obligations.HardResetGivesResetValues := by
  intro circuits fire s
  refine ⟨hardResetOp circuits fire s, rfl, ?_⟩
  rw [hardResetOp_eq]
  cases fire with
  | false =>
    simp only [Bool.false_eq_true, if_false]
    refine ⟨rfl, rfl, rfl, rfl, rfl, ?_, ?_, fun d => ?_, rfl, rfl, rfl, rfl, ?_, rfl, rfl, rfl, rfl⟩
    · intro l; simp [released, State.reset, Line.reset, ReaderDesc.unused]
    · intro i; simp [released, State.reset, Zone.reset]
    · rw [released_door]
      cases circuits.getLsbD d.val <;> decide
    · intro c; simp [released, State.reset, Bells.reset]
  | true =>
    simp only [if_true]
    rw [assertFire_released, forCircuits_eq]
    refine ⟨rfl, rfl, rfl, rfl, rfl, ?_, ?_, fun d => ?_, rfl, rfl, rfl, rfl, ?_, rfl, rfl, rfl, rfl⟩
    · intro l; simp [mapDoors, releasedInAlarm, released, State.reset, Line.reset, ReaderDesc.unused]
    · intro i; simp [mapDoors, releasedInAlarm, released, State.reset, Zone.reset]
    · dsimp only
      rw [mapDoors_door]
      rw [show (releasedInAlarm circuits s).doors[d] = Door.powerUp (circuits.getLsbD d.val) from
        released_door circuits s d]
      cases circuits.getLsbD d.val <;> decide
    · intro c
      dsimp only
      rw [forCircuits_circuit, if_pos (by decide +revert)]
      simp [mapDoors, releasedInAlarm, released, State.reset, Bells.reset, Circuit.startEvac]

end Sys2Proof.Machine
end

section
/-! CERTIFICATE. Records: how one is placed, how a record of one entry reaches the journal, and the bytes
of each kind (10.3, 10.5); and clear done, which makes the record deferred from CLEARING (11.2). -/

namespace Sys2Proof.Machine

/-! ### Flags -/

theorem raise_eq {s : State} (h : s.regs.run ≠ .clearing) (e : Event) :
    raise e s = { s with regs := { s.regs with events := s.regs.events ||| e.mask } } := if_neg h

theorem flagSet_raise_same {s : State} (h : s.regs.run ≠ .clearing) (e : Event) :
    flagSet e (raise e s) = true := by
  rw [raise_eq h]
  cases e <;> simp [flagSet, Event.mask, Event.bit]

/-! ### Placing a record -/

/-- The state with a record at the tail of the holding queue. -/
def joined (reserved : Bool) (time : Stamp) (b : RecordBody) (s : State) : State :=
  { s with link := { s.link with
    queue := s.link.queue ++ [⟨s.link.seq, time, b, s.link.draws⟩]
    seq := (s.link.seq + 1) % 65536
    draws := s.link.draws + 1
    reserved := if reserved then s.link.reserved - 1 else s.link.reserved } }

/-- A record in a free place takes one. -/
theorem freePlaces_joined (t : Stamp) (b : RecordBody) (s : State) :
    freePlaces (joined false t b s) = freePlaces s - 1 := by
  have hcap : queueCap (joined false t b s) = queueCap s := rfl
  simp only [freePlaces, hcap]
  simp only [joined, List.length_append, List.length_singleton, Bool.false_eq_true, if_false]
  omega

theorem placeRecord_eq (reserved : Bool) (t : Stamp) (b : RecordBody) (s : State) :
    placeRecord reserved t b s =
      if freePlaces s ≠ 0 ∧ freePlaces (joined reserved t b s) = 0 then
        raise .holdFull (joined reserved t b s)
      else joined reserved t b s := rfl

/-- A record that leaves a place free beside its own raises nothing. -/
theorem placeRecord_of_room {s : State} (h : 2 ≤ freePlaces s) (t : Stamp) (b : RecordBody) :
    placeRecord false t b s = joined false t b s := by
  rw [placeRecord_eq, if_neg]
  rw [freePlaces_joined]
  omega

/-- Without a count to report, or without a place beside the record's own, no HOLD_GAP record is made. -/
theorem placeGap_self {s : State} {reserved : Bool} (hgap : s.link.holdGap = 0)
    (hlost : s.link.lost = 0 ∨ reserved = false ∧ freePlaces s ≤ 1) : placeGap reserved s = s := by
  unfold placeGap
  rw [if_neg]
  rintro ⟨hcount, hroom⟩
  rcases hlost with h | ⟨rfl, h⟩
  · omega
  · simp only [Bool.false_eq_true, if_false] at hroom
    omega

/-- Handing over a record with no count to report and a place for it. -/
theorem handOver_eq {s : State} {reserved : Bool} (hrun : s.regs.run ≠ .clearing)
    (hgap : placeGap reserved s = s) (hroom : reserved = true ∨ 1 ≤ freePlaces s) (t : Stamp)
    (b : RecordBody) :
    handOver reserved t b s =
      if s.link.queue.isEmpty then beginWrites (placeRecord reserved t b s)
      else placeRecord reserved t b s := by
  unfold handOver
  rw [if_neg hrun, if_neg, hgap]
  rintro ⟨rfl, hfree⟩
  rcases hroom with h | h
  · cases h
  · omega

/-- What a hand-over that waits for its write leaves. -/
theorem handOver_waits {s : State} {reserved : Bool} (hrun : s.regs.run ≠ .clearing)
    (hwaits : s.regs.run ≠ .running ∨ s.link.queue ≠ []) (hgap : placeGap reserved s = s)
    (hroom : reserved = true ∨ 1 ≤ freePlaces s) (t : Stamp) (b : RecordBody) :
    handOver reserved t b s =
      if s.link.queue.isEmpty then raise .holding (placeRecord reserved t b s)
      else placeRecord reserved t b s := by
  rw [handOver_eq hrun hgap hroom]
  split
  next hempty =>
    have hstill : (placeRecord reserved t b s).regs.run ≠ .running := by
      rw [placeRecord_eq]
      split
      · rw [raise_run]
        exact hwaits.resolve_right (by simp [List.isEmpty_iff.1 hempty])
      · exact hwaits.resolve_right (by simp [List.isEmpty_iff.1 hempty])
    rw [beginWrites, if_neg hstill]
  · rfl

theorem placeRecord_linkStands (reserved : Bool) (t : Stamp) (b : RecordBody) (s : State) :
    (placeRecord reserved t b s).regs.run = s.regs.run ∧ (placeRecord reserved t b s).ram = s.ram := by
  rw [placeRecord_eq]
  split
  · exact ⟨raise_run _ _, raise_ram _ _⟩
  · exact ⟨rfl, rfl⟩

/-- Settles O59: the three arms of `handOver`; where the record waits, `handOver_waits`. -/
theorem recordsJoinTheHoldingQueue : Obligations.RecordsJoinTheHoldingQueue := by
  intro reserved time b s hgap hlost
  have hplace := placeGap_self hgap hlost
  refine ⟨fun h => handOver_clearing h _ _ _, fun hrun hres hfree => ?_, fun hrun hwaits hroom => ?_⟩
  · unfold handOver
    rw [if_neg hrun, if_pos ⟨hres, hfree⟩]
    rfl
  · have hlink := placeRecord_link reserved time b s
    have honly := handOver_linkOnly reserved time b s
    obtain ⟨hprun, hpram⟩ := placeRecord_linkStands reserved time b s
    refine ⟨_, rfl, ?_, fun hempty => ?_, fun hres hone => ?_, ?_, ?_, honly.table, honly.doors, honly.clock⟩
    · rw [handOver_waits hrun hwaits hplace hroom]
      split
      · rw [raise_link, hlink]
      · exact hlink
    · rw [handOver_waits hrun hwaits hplace hroom, hempty]
      exact flagSet_raise_same (hprun ▸ hrun) _
    · have hfull : flagSet .holdFull (placeRecord reserved time b s) = true := by
        subst hres
        rw [placeRecord_eq, if_pos ⟨by omega, by rw [freePlaces_joined]; omega⟩]
        exact flagSet_raise_same (s := joined false time b s) hrun _
      rw [handOver_waits hrun hwaits hplace hroom]
      split
      · exact flagSet_raise_of_flagSet _ hfull
      · exact hfull
    · rw [handOver_waits hrun hwaits hplace hroom]
      split
      · rw [raise_run, hprun]
      · exact hprun
    · rw [handOver_waits hrun hwaits hplace hroom]
      split
      · rw [raise_ram, hpram]
      · exact hpram

/-! ### Clear done -/

/-- A record placed outside CLEARING and RUNNING in an empty queue that has room for more. -/
theorem handOver_held {s : State} (hrun : s.regs.run ≠ .clearing) (hgates : s.regs.run ≠ .running)
    (hqueue : s.link.queue = []) (hgap : s.link.holdGap = 0) (hlost : s.link.lost = 0)
    (hroom : 2 ≤ freePlaces s) (t : Stamp) (b : RecordBody) :
    handOver false t b s = raise .holding (joined false t b s) := by
  rw [handOver_waits hrun (.inl hgates) (placeGap_self hgap (.inl hlost)) (.inr (by omega)), hqueue,
    placeRecord_of_room hroom]
  rfl

/-- Settles O14: the deferred record is the first of an empty queue, in HALTED. -/
theorem clearDoneEntersHalted : Obligations.ClearDoneEntersHalted := by
  intro s
  refine ⟨fun h => congrArg Host.Outcome.next (if_neg h), fun h hnone => ?_, ?_⟩
  · refine congrArg Host.Outcome.next ?_
    rw [clearDoneOp, if_pos h, hnone]
    rfl
  · intro at_ lapses again h hdef hqueue hres hgap hlost hcap
    refine congrArg Host.Outcome.next ?_
    have hroom : ∀ F : FireUnit, 2 ≤ freePlaces { setRun .halted s with fire := F } := fun F => by
      simp only [freePlaces, queueCap, setRun, hqueue, hres, hcap]
      decide
    rw [clearDoneOp, if_pos h, hdef]
    dsimp only
    refine (congrArg (raise .fireOn) (handOver_held
      (s := { setRun .halted s with fire := { s.fire with deferred := none } })
      (by simp) (by simp) hqueue hgap hlost (hroom _) _ _)).trans ?_
    rw [raise_eq (by simp [joined]), raise_eq (by simp [joined])]
    simp [joined, hqueue, setRun, Event.mask, Event.bit, BitVec.or_assoc]

/-! ### The bytes of a record -/

end Sys2Proof.Machine
end

section
/-! CERTIFICATE. The bytes of a record of each kind, and a record of one entry that reaches the journal
(10.3, 10.5). -/

namespace Sys2Proof.Machine

/-! ### The fields of a captured shift -/

/-- The fields of a captured shift are those of a shift, and free values where there is none. -/
theorem captured_fields (draw : Nat) (captured : Option ShiftRun) : ∃ day ts te : Nat,
    (∀ c : ShiftRun, captured = some c → day = c.day ∧ ts = c.ts ∧ te = c.te) ∧
      capturedDay draw captured = le16 day ∧ capturedTimes draw captured = le32 ts ++ le32 te := by
  cases captured with
  | none => exact ⟨_, _, _, (fun c h => nomatch h), rfl, rfl⟩
  | some c => exact ⟨c.day, c.ts, c.te, fun x h => by cases h; exact ⟨rfl, rfl, rfl⟩, rfl, rfl⟩

theorem capturedShift_eq (captured : Option ShiftRun) :
    capturedShift captured = captured.elim 0 fun x => byteOf x.shift := by
  cases captured <;> rfl

theorem doorByte_eq (door : Option DoorNo) : doorByte door = door.elim 0xFF fun d => byteOf d.val := by
  cases door <;> rfl

theorem signed16_eq (n : Int) : signed16 n = (n % 65536).toNat := by
  simp [signed16, BitVec.toNat_ofInt]

theorem packFlags_two (a b : Bool) : packFlags [a, b] = bit a + 2 * bit b := by
  simp only [packFlags]; ring

theorem packFlags_four (a b c d : Bool) :
    packFlags [a, b, c, d] = bit a + 2 * bit b + 4 * bit c + 8 * bit d := by
  simp only [packFlags]; ring

theorem packFlags_six (a b c d e f : Bool) : packFlags [a, b, c, d, e, f] =
    bit a + 2 * bit b + 4 * bit c + 8 * bit d + 16 * bit e + 32 * bit f := by
  simp only [packFlags]; ring

/-! ### Records of two entries -/

theorem spelledAs_punchIn (seq : Nat) (time : Stamp) (p : PassageInfo) (captured : Option ShiftRun)
    (rule deadline : Nat) (late newRun : Bool) (draw : Nat) : ∃ day ts te : Nat,
    (∀ c : ShiftRun, captured = some c → day = c.day ∧ ts = c.ts ∧ te = c.te) ∧
    Record.spelledAs ⟨seq, time, .punchIn p captured rule deadline late newRun, draw⟩ 0x01
      (bit p.inward + 2 * bit p.apbSoft + 4 * bit late + 8 * bit newRun) p.slot
      (passageFields p ++ le16 day ++ [captured.elim 0 fun x => byteOf x.shift, byteOf rule] ++
        le32 ts ++ le32 te ++ le32 deadline) := by
  obtain ⟨day, ts, te, hc, hday, htimes⟩ := captured_fields draw captured
  refine ⟨day, ts, te, hc, Record.spelledAs_of_body rfl (packFlags_four _ _ _ _) rfl ?_ ?_⟩
  · simp only [RecordBody.payload, passageBytes_eq, hday, htimes, capturedShift_eq, List.append_assoc]
  · simp [passageFields_length, le16, le32]

theorem spelledAs_punchOut (seq : Nat) (time : Stamp) (p : PassageInfo) (tIn : Nat)
    (captured : Option ShiftRun) (c : ClosingResult) (draw : Nat) : ∃ day ts te : Nat,
    (∀ c : ShiftRun, captured = some c → day = c.day ∧ ts = c.ts ∧ te = c.te) ∧
    Record.spelledAs ⟨seq, time, .punchOut p tIn captured c, draw⟩ 0x02
      (bit p.inward + 2 * bit p.apbSoft + 4 * bit c.late + 8 * bit c.leftEarly +
        16 * bit c.tookBreak + 32 * bit c.saturated) p.slot
      (passageFields p ++ le32 tIn ++ le16 day ++ [captured.elim 0 fun x => byteOf x.shift] ++
        le32 ts ++ le32 te ++ closingFields c) := by
  obtain ⟨day, ts, te, hc, hday, htimes⟩ := captured_fields draw captured
  refine ⟨day, ts, te, hc, Record.spelledAs_of_body rfl (packFlags_six _ _ _ _ _ _) rfl ?_ ?_⟩
  · simp only [RecordBody.payload, passageBytes_eq, closingBytes_eq, hday, htimes, capturedShift_eq,
      List.append_assoc]
  · simp [passageFields_length, closingFields_length, le16, le32]

theorem spelledAs_autoClose (seq : Nat) (time : Stamp) (slot badge issue : Nat) (cause : CloseCause)
    (location : ZoneNo) (i : OpenInterval) (c : ClosingResult) (draw : Nat) : ∃ day ts te : Nat,
    (∀ c : ShiftRun, i.captured = some c → day = c.day ∧ ts = c.ts ∧ te = c.te) ∧
    Record.spelledAs ⟨seq, time, .autoClose slot badge issue cause location i c, draw⟩ 0x08
      (bit c.missedOut + 2 * bit c.late + 4 * bit c.tookBreak + 8 * bit c.saturated) slot
      (le32 badge ++ [byteOf issue, byteOf cause.code, byteOf location.val, byteOf i.rule] ++
        le32 i.tIn ++ le16 day ++ [i.captured.elim 0 fun x => byteOf x.shift] ++ le32 ts ++ le32 te ++
        le32 i.deadline ++ closingFields c) := by
  obtain ⟨day, ts, te, hc, hday, htimes⟩ := captured_fields draw i.captured
  refine ⟨day, ts, te, hc, Record.spelledAs_of_body rfl (packFlags_four _ _ _ _) rfl ?_ ?_⟩
  · simp only [RecordBody.payload, closingBytes_eq, hday, htimes, capturedShift_eq, List.append_assoc]
  · simp [closingFields_length, le16, le32]

/-! ### The journal write of a record of one entry -/

/-- The state with one record in the journal entry at the position, its owner byte last. -/
def journaled (su : Setup) (r : Record) (s : State) : State :=
  let off := 32 * (s.link.journalPos % 2 ^ su.journalLog)
  { s with
    ram := writeBytes (writeBytes s.ram su.journal (off + 1) r.firstEntry) su.journal off [0xF1]
    link := { s.link with contWritten := true } }

theorem tryWriteHead_filled {s : State} {su : Setup} {r : Record} {rest : List Record}
    (hqueue : s.link.queue = r :: rest) (hsetup : s.link.setup = some su) (hanswers : s.linkAnswers = [])
    (hone : r.body.entries = 1)
    (hfilled : readCell s.ram (addrAt su.journal (32 * (s.link.journalPos % 2 ^ su.journalLog))) ≠ 0) :
    tryWriteHead s = (.blocked, s) := by
  have htest : testEntries su [0] s = (.blocked, s) := by
    simp only [testEntries, linkAccess_nil hanswers, journalOffset, Nat.add_zero]
    exact if_neg hfilled
  unfold tryWriteHead
  rw [hqueue, hsetup]
  simp [hone, htest]

theorem tryWriteHead_empty {s : State} {su : Setup} {r : Record} {rest : List Record}
    (hqueue : s.link.queue = r :: rest) (hsetup : s.link.setup = some su) (hanswers : s.linkAnswers = [])
    (hone : r.body.entries = 1)
    (hempty : readCell s.ram (addrAt su.journal (32 * (s.link.journalPos % 2 ^ su.journalLog))) = 0) :
    tryWriteHead s = (.wrote, leaveQueue su 1 (journaled su r s)) := by
  unfold tryWriteHead
  rw [hqueue, hsetup]
  simp [hone, testEntries, writeEntries, linkWrite_nil, hanswers, journalOffset,
    hempty, journaled, Record.entryBytes]

/-- The state after the only held record, of one entry, has been written. -/
def leftJournal (su : Setup) (r : Record) (s : State) : State :=
  leaveQueue su 1 (journaled su r s)

theorem leaveQueue_link (su : Setup) (n : Nat) (s : State) :
    (leaveQueue su n s).link = { s.link with
      queue := s.link.queue.tail
      contWritten := false
      journalPos := (s.link.journalPos + n) % 2 ^ su.journalLog
      fill := min (2 ^ su.journalLog) (s.link.fill + n) } := by
  unfold leaveQueue
  dsimp only
  rw [raiseIf_link]
  rfl

theorem leaveQueue_ram (su : Setup) (n : Nat) (s : State) : (leaveQueue su n s).ram = s.ram := by
  unfold leaveQueue
  dsimp only
  split
  · exact raise_ram _ _
  · rfl

/-- In RUNNING a record of one entry that finds its entry EMPTY is written, and nothing is left. -/
theorem handOver_written {s : State} {su : Setup} (hrun : s.regs.run = .running)
    (hsetup : s.link.setup = some su) (hanswers : s.linkAnswers = []) (hqueue : s.link.queue = [])
    (hgap : s.link.holdGap = 0) (hlost : s.link.lost = 0) (hroom : 2 ≤ freePlaces s) (time : Stamp)
    {b : RecordBody} (hone : b.entries = 1)
    (hempty : readCell s.ram (addrAt su.journal (32 * (s.link.journalPos % 2 ^ su.journalLog))) = 0) :
    handOver false time b s =
      leftJournal su ⟨s.link.seq, time, b, s.link.draws⟩ (joined false time b s) := by
  have hhead : (joined false time b s).link.queue = [⟨s.link.seq, time, b, s.link.draws⟩] := by
    simp [joined, hqueue]
  have hwrite := tryWriteHead_empty hhead hsetup hanswers hone hempty
  have hrest : (leaveQueue su 1 (journaled su ⟨s.link.seq, time, b, s.link.draws⟩
      (joined false time b s))).link.queue = [] := by
    rw [leaveQueue_link]
    simp [journaled, hhead]
  rw [handOver_eq (by simp [hrun]) (placeGap_self hgap (.inl hlost)) (.inr (by omega)), hqueue,
    placeRecord_of_room hroom]
  unfold beginWrites
  rw [List.isEmpty_nil, if_pos rfl, if_pos (by exact hrun), hwrite]
  dsimp only
  rw [writeHeads, hrest]
  rfl

theorem handOver_heldUp {s : State} {su : Setup} (hrun : s.regs.run = .running)
    (hsetup : s.link.setup = some su) (hanswers : s.linkAnswers = []) (hqueue : s.link.queue = [])
    (hgap : s.link.holdGap = 0) (hlost : s.link.lost = 0) (hroom : 2 ≤ freePlaces s) (time : Stamp)
    {b : RecordBody} (hone : b.entries = 1)
    (hfilled : readCell s.ram (addrAt su.journal (32 * (s.link.journalPos % 2 ^ su.journalLog))) ≠ 0) :
    handOver false time b s = raise .holding (joined false time b s) := by
  have hhead : (joined false time b s).link.queue = [⟨s.link.seq, time, b, s.link.draws⟩] := by
    simp [joined, hqueue]
  have hwrite := tryWriteHead_filled hhead hsetup hanswers hone hfilled
  rw [handOver_eq (by simp [hrun]) (placeGap_self hgap (.inl hlost)) (.inr (by omega)), hqueue,
    placeRecord_of_room hroom]
  unfold beginWrites
  rw [List.isEmpty_nil, if_pos rfl, if_pos (by exact hrun), hwrite]

/-! ### The obligation -/

/-- Settles O60: each kind of record by `Record.spelledAs_of_body`, and the write by
`handOver_written` and `handOver_heldUp`. -/
theorem oneEntryRecordsReachTheJournal : Obligations.OneEntryRecordsReachTheJournal := by
  refine ⟨?bytes, by decide, ?journal⟩
  case bytes =>
    rintro ⟨seq, time, body, draw⟩
    cases body with
    | punchIn p captured rule deadline late newRun => exact ⟨rfl, spelledAs_punchIn ..⟩
    | punchOut p tIn captured c => exact ⟨rfl, spelledAs_punchOut ..⟩
    | autoClose slot badge issue cause location i c => exact ⟨rfl, spelledAs_autoClose ..⟩
    | reentry p | strayOut p | passage p =>
      exact ⟨rfl, Record.spelledAs_of_body rfl (packFlags_two _ _) rfl (passageBytes_eq p)
        (by rw [passageFields_length]; omega)⟩
    | mustered slot badge line zone location on again =>
      exact ⟨rfl, Record.spelledAs_of_body rfl (packFlags_two _ _) rfl rfl (by simp [le32])⟩
    | musterWritten captured entries total truncated noArea =>
      exact ⟨rfl, Record.spelledAs_of_body rfl (packFlags_two _ _) rfl rfl (by simp [le16, le32])⟩
    | refused slot badge issue line door reason =>
      refine ⟨rfl, Record.spelledAs_of_body rfl rfl rfl ?_ (by simp [le32])⟩
      simp only [RecordBody.payload, doorByte_eq]
    | clockStep old cause =>
      cases old with
      | none => exact ⟨rfl, _, Record.spelledAs_of_body rfl rfl rfl rfl (by simp)⟩
      | some old => exact ⟨rfl, Record.spelledAs_of_body rfl rfl rfl rfl (by simp [le32])⟩
    | syncState old new rho dev =>
      refine ⟨rfl, Record.spelledAs_of_body rfl rfl rfl ?_ (by simp [le16])⟩
      simp only [RecordBody.payload, signed16_eq]
    | lapsed | holdGap | readerOffline | readerOnline | readerTamper | doorForced | doorHeld
    | doorRestored | doorFault | bellSkipped | fireOn | fireOff | fireAck =>
      exact ⟨rfl, Record.spelledAs_of_body rfl rfl rfl rfl (by simp [le16, le32])⟩
  case journal =>
    intro time b s su hrun hsetup hanswers hqueue hgap hlost hroom hone
    refine ⟨fun hempty => ?_, fun hfilled => ?_⟩
    · have honly := handOver_linkOnly false time b s
      have hwritten := handOver_written hrun hsetup hanswers hqueue hgap hlost hroom time hone hempty
      refine ⟨_, rfl, ?_, ?_, ?_, honly.table, honly.doors, honly.clock⟩
      · rw [hwritten, leftJournal, leaveQueue_ram]
        rfl
      · rw [hwritten, leftJournal, leaveQueue_link]
        simp [journaled, joined, hqueue]
      · rw [hwritten]
        unfold leftJournal leaveQueue
        dsimp only
        split
        · rw [raise_run]; exact hrun
        · exact hrun
    · rw [handOver_heldUp hrun hsetup hanswers hqueue hgap hlost hroom time hone hfilled,
        raise_eq (by simp [joined, hrun])]
      simp [joined, hqueue, Event.mask, Event.bit]

end Sys2Proof.Machine
end

section
/-! SUPPORT. What a hand-over leaves, as an equation: outside RUNNING the queue's own fields and the event
flags change alone, and with no error response to come the journal's fields and the RAM besides (10.3). -/

namespace Sys2Proof.Machine

/-! ### Records held -/

/-- The state with other fields of the holding queue and other event flags. -/
def heldState (queue : List Record) (reserved holdGap lost seq draws : Nat) (events : BitVec 12)
    (s : State) : State :=
  { s with
    link := { s.link with
      queue := queue, reserved := reserved, holdGap := holdGap, lost := lost, seq := seq, draws := draws }
    regs := { s.regs with events := events } }

/-- `t` differs from `s` in the fields of the holding queue and the event flags alone. -/
def HoldStep (s t : State) : Prop :=
  ∃ queue reserved holdGap lost seq draws events,
    t = heldState queue reserved holdGap lost seq draws events s

theorem HoldStep.refl (s : State) : HoldStep s s := ⟨_, _, _, _, _, _, _, rfl⟩

theorem HoldStep.trans {s t u : State} (h : HoldStep s t) (k : HoldStep t u) : HoldStep s u := by
  obtain ⟨_, _, _, _, _, _, _, rfl⟩ := h
  obtain ⟨_, _, _, _, _, _, _, rfl⟩ := k
  exact ⟨_, _, _, _, _, _, _, rfl⟩

theorem HoldStep.run {s t : State} (h : HoldStep s t) : t.regs.run = s.regs.run := by
  obtain ⟨_, _, _, _, _, _, _, rfl⟩ := h
  rfl

theorem raise_holdStep (e : Event) (s : State) : HoldStep s (raise e s) := by
  unfold raise
  split
  · exact .refl s
  · exact ⟨_, _, _, _, _, _, _, rfl⟩

theorem placeRecord_holdStep (reserved : Bool) (t : Stamp) (b : RecordBody) (s : State) :
    HoldStep s (placeRecord reserved t b s) := by
  have hjoin : HoldStep s (joined reserved t b s) := ⟨_, _, _, _, _, _, _, rfl⟩
  rw [placeRecord_eq]
  split
  · exact hjoin.trans (raise_holdStep _ _)
  · exact hjoin

theorem placeGap_holdStep (reserved : Bool) (s : State) : HoldStep s (placeGap reserved s) := by
  unfold placeGap
  generalize (if reserved then 1 else 2) = n
  split
  · refine HoldStep.trans ?_ (placeRecord_holdStep _ _ _ _)
    exact ⟨_, _, _, _, _, _, _, rfl⟩
  · exact .refl s

/-- Outside RUNNING a hand-over touches the queue and the flags alone. -/
theorem handOver_holdStep {s : State} (h : s.regs.run ≠ .running) (reserved : Bool) (t : Stamp)
    (b : RecordBody) : HoldStep s (handOver reserved t b s) := by
  unfold handOver
  split
  · exact .refl s
  split
  · exact ⟨_, _, _, _, _, _, _, rfl⟩
  · have hplace := (placeGap_holdStep reserved s).trans (placeRecord_holdStep reserved t b _)
    dsimp only
    split
    · rw [beginWrites, if_neg (hplace.run ▸ h)]
      exact hplace.trans (raise_holdStep _ _)
    · exact hplace

theorem report_holdStep {s : State} (h : s.regs.run ≠ .running) (b : RecordBody) :
    HoldStep s (report b s) := handOver_holdStep h false _ b

/-! ### Records written -/

/-- The state with other fields of the journal too, and another RAM. -/
def writtenState (l : Link) (events : BitVec 12) (m : Memory) (s : State) : State :=
  { s with
    link := { s.link with
      queue := l.queue, reserved := l.reserved, holdGap := l.holdGap, lost := l.lost, seq := l.seq,
      draws := l.draws, journalPos := l.journalPos, fill := l.fill, contWritten := l.contWritten }
    regs := { s.regs with events := events }
    ram := m }

/-- `t` differs from `s` in the fields of the holding queue and of the journal, the event flags and the RAM
alone. -/
def WriteStep (s t : State) : Prop := ∃ l events m, t = writtenState l events m s

theorem WriteStep.refl (s : State) : WriteStep s s := ⟨s.link, _, _, rfl⟩

theorem WriteStep.trans {s t u : State} (h : WriteStep s t) (k : WriteStep t u) : WriteStep s u := by
  obtain ⟨l, _, _, rfl⟩ := h
  obtain ⟨l', _, _, rfl⟩ := k
  exact ⟨l', _, _, rfl⟩

theorem HoldStep.writeStep {s t : State} (h : HoldStep s t) : WriteStep s t := by
  obtain ⟨q, r, g, l, n, d, e, rfl⟩ := h
  exact ⟨{ s.link with queue := q, reserved := r, holdGap := g, lost := l, seq := n, draws := d }, e,
    s.ram, rfl⟩

theorem WriteStep.run {s t : State} (h : WriteStep s t) : t.regs.run = s.regs.run := by
  obtain ⟨_, _, _, rfl⟩ := h
  rfl

theorem WriteStep.answers {s t : State} (h : WriteStep s t) : t.linkAnswers = s.linkAnswers := by
  obtain ⟨_, _, _, rfl⟩ := h
  rfl

theorem testEntries_nil (su : Setup) : ∀ (l : List Nat) {s : State}, s.linkAnswers = [] →
    (testEntries su l s).2 = s
  | [], _, _ => rfl
  | k :: rest, s, h => by
    have ih := testEntries_nil su rest h
    rw [testEntries, linkAccess_nil h]
    dsimp only
    split
    · next he =>
      rw [he] at ih
      dsimp only at ih
      split <;> exact ih
    · exact ih

theorem writeEntries_writeStep (su : Setup) (r : Record) : ∀ (l : List Nat) {s : State},
    s.linkAnswers = [] → WriteStep s (writeEntries su r l s).2
  | [], s, _ => .refl s
  | k :: rest, s, h => by
    rw [writeEntries, linkWrite_nil h]
    dsimp only
    rw [linkWrite_nil (by exact h)]
    dsimp only
    refine WriteStep.trans ?_ (writeEntries_writeStep su r rest (by exact h))
    exact ⟨{ s.link with contWritten := true }, _, _, rfl⟩

theorem leaveQueue_writeStep (su : Setup) (n : Nat) (s : State) : WriteStep s (leaveQueue su n s) := by
  have hleave : ∀ l : Link, WriteStep s { s with link := { s.link with
      queue := l.queue, contWritten := l.contWritten, journalPos := l.journalPos, fill := l.fill } } :=
    fun l => ⟨{ s.link with
      queue := l.queue, contWritten := l.contWritten, journalPos := l.journalPos, fill := l.fill }, _, _, rfl⟩
  unfold leaveQueue
  dsimp only
  have h := hleave { s.link with
    queue := s.link.queue.tail, contWritten := false,
    journalPos := (s.link.journalPos + n) % 2 ^ su.journalLog,
    fill := satAdd (2 ^ su.journalLog) s.link.fill n }
  split
  · exact h.trans (raise_holdStep _ _).writeStep
  · exact h

theorem tryWriteHead_writeStep {s : State} (h : s.linkAnswers = []) :
    WriteStep s (tryWriteHead s).2 := by
  unfold tryWriteHead
  split
  next r rest su _ _ =>
    dsimp only
    have htest := testEntries_nil su
      (if (r.body.entries == 2 && !s.link.contWritten) = true then [0, 1] else [0]) h
    split
    · next s1 he =>
      rw [he] at htest
      subst htest
      have hwrite := writeEntries_writeStep su r
        (if (r.body.entries == 2) = true then [1, 0] else [0]) h
      split
      · next he2 =>
        rw [he2] at hwrite
        exact hwrite.trans (leaveQueue_writeStep _ _ _)
      · exact hwrite
    · rw [htest]
      exact .refl _
  · exact .refl _

theorem writeHeads_writeStep : ∀ (n : Nat) {s : State}, s.linkAnswers = [] → WriteStep s (writeHeads n s)
  | 0, s, _ => .refl s
  | n + 1, s, h => by
    have hhead := tryWriteHead_writeStep h
    rw [writeHeads]
    split
    · exact .refl s
    · split
      · next he =>
        rw [he] at hhead
        exact hhead.trans (writeHeads_writeStep n (hhead.answers.trans h))
      · next he =>
        rw [he] at hhead
        exact hhead

theorem beginWrites_writeStep {s : State} (h : s.linkAnswers = []) : WriteStep s (beginWrites s) := by
  have hhead := tryWriteHead_writeStep h
  unfold beginWrites
  split
  · split
    · next he =>
      rw [he] at hhead
      exact hhead.trans (writeHeads_writeStep 1 (hhead.answers.trans h))
    · next he =>
      rw [he] at hhead
      exact hhead.trans (raise_holdStep _ _).writeStep
    · next he =>
      rw [he] at hhead
      exact hhead
  · exact (raise_holdStep _ _).writeStep

/-- With no error response to come a hand-over touches the queue, the journal, the flags and the RAM. -/
theorem handOver_writeStep {s : State} (h : s.linkAnswers = []) (reserved : Bool) (t : Stamp)
    (b : RecordBody) : WriteStep s (handOver reserved t b s) := by
  unfold handOver
  split
  · exact .refl s
  split
  · exact HoldStep.writeStep ⟨_, _, _, _, _, _, _, rfl⟩
  · have hplace := ((placeGap_holdStep reserved s).trans (placeRecord_holdStep reserved t b _)).writeStep
    dsimp only
    split
    · exact hplace.trans (beginWrites_writeStep (hplace.answers.trans h))
    · exact hplace

end Sys2Proof.Machine
end

section
/-! CERTIFICATE. The start and the failure of a load, the acknowledgement of the fire, and the register
window (10.1, 9.1, 11.1, 11.2, 11.3). -/

namespace Sys2Proof.Machine

/-! ### The start of a load -/

/-- The machine before the change of sync state at the start of a load. -/
def loadEmptied (withRun : Bool) (s : State) : State :=
  let s1 := startLink (emptyTables { s with regs := { s.regs with
    run := .loading, configValid := false, runMark := withRun } })
  { s1 with clock := { s1.clock with slew := none, holdover := 0 } }

/-- The sync state set to UNSYNCED and, at a change, its record and event. -/
theorem loadStarted_holdStep (withRun : Bool) (s : State) :
    HoldStep { loadEmptied withRun s with
      clock := { (loadEmptied withRun s).clock with sync := .unsynced } } (loadStarted withRun s) := by
  have heq : loadStarted withRun s = changeSync .unsynced (loadEmptied withRun s) := rfl
  rw [heq]
  unfold changeSync
  split
  next h =>
    have hself : ({ loadEmptied withRun s with
        clock := { (loadEmptied withRun s).clock with sync := .unsynced } } : State) =
        loadEmptied withRun s := by
      rw [← h]
    rw [hself]
    exact .refl _
  · exact HoldStep.trans (report_holdStep (by intro h; cases h) _) (raise_holdStep _ _)

theorem tablesEmptied_loadStarted (withRun : Bool) (s : State) :
    TablesEmptied s (loadStarted withRun s) ∧ (loadStarted withRun s).regs.run = .loading ∧
      (loadStarted withRun s).regs.configValid = false ∧
      (loadStarted withRun s).regs.runMark = withRun ∧
      (loadStarted withRun s).regs.setupAddr = s.regs.setupAddr ∧
      (loadStarted withRun s).ram = s.ram ∧ (loadStarted withRun s).linkAnswers = s.linkAnswers := by
  obtain ⟨queue, reserved, holdGap, lost, seq, draws, events, heq⟩ := loadStarted_holdStep withRun s
  rw [heq]
  refine ⟨⟨rfl, rfl, rfl, rfl, rfl, rfl, fun l => ?_, fun i => ?_, fun d => ?_, rfl, rfl, rfl, rfl, rfl, rfl,
    rfl, rfl, rfl, rfl, rfl, rfl, rfl⟩, rfl, rfl, rfl, rfl, rfl, rfl⟩
  · simp [heldState, loadEmptied, startLink, emptyTables, ReaderDesc.unused]
  · simp [heldState, loadEmptied, startLink, emptyTables, Zone.unload, Zone.reset]
  · have hdoor : (heldState queue reserved holdGap lost seq draws events
        { loadEmptied withRun s with
          clock := { (loadEmptied withRun s).clock with sync := .unsynced } }).doors[d] =
        s.doors[d].unload := by
      simp [heldState, loadEmptied, startLink, emptyTables]
    rw [hdoor]
    have hrest := drive_unsupervised false (wantedRelay s.doors[d]) { s.doors[d] with
      entry := DoorEntry.default
      settle := none
      disagree := 0
      contact := contactOf DoorEntry.default.polarity s.doors[d].circuit } rfl ⟨rfl, rfl⟩
    refine ⟨?_, ?_, ?_, ?_, hrest.1, hrest.2, ?_⟩ <;> simp [Door.unload, DoorEntry.default]

/-- Settles O16: the tables are those of `tablesEmptied_loadStarted`, and the result word is one write. -/
theorem loadStartEmptiesTables : Obligations.LoadStartEmptiesTables := by
  intro withRun host s
  have hexec : exec (.load withRun host) s = .next (startLoad withRun (s.hostWrites host)) := rfl
  obtain ⟨hempty, hrun, hvalid, hmark, haddr, hram, hanswers⟩ :=
    tablesEmptied_loadStarted withRun (s.hostWrites host)
  rw [hexec, startLoad_eq]
  refine ⟨fun h => ?_, fun h hmis => ?_, fun h hali hans => ?_⟩
  · rw [if_neg (by exact h)]
    rfl
  · rw [if_pos (by exact h), if_pos (by rw [haddr]; exact hmis)]
    have hne : ({ (loadStarted withRun (s.hostWrites host)) with regs :=
      { (loadStarted withRun (s.hostWrites host)).regs with
        run := .halted, configValid := false, runMark := false } } : State).regs.run ≠ .clearing := by
      simp
    refine ⟨_, rfl, ?_, ?_, ?_, flagSet_raise_same hne _, ?_⟩
    · rw [loadFailed, raise_eq hne]
      exact hempty
    · rw [loadFailed, raise_eq hne]
    · rw [loadFailed, raise_eq hne]
    · rw [loadFailed, raise_eq hne]
      exact hram
  · rw [if_pos (by exact h), if_neg (by rw [haddr]; exact not_not.2 hali), writeResult,
      linkWrite_nil (hanswers.trans hans), haddr, hram]
    exact ⟨_, rfl, hempty, hrun, hvalid, hmark, rfl⟩

/-! ### The failure of a load -/

/-- A load that fails with no error response writes its result word and is HALTED. -/
theorem failLoad_nil {s : State} (h : s.linkAnswers = []) (f : LoadFault) :
    failLoad f s = { s with
      ram := writeBytes s.ram s.regs.setupAddr 0 (resultWord f.code f.table f.entry)
      regs := { s.regs with
        run := .halted
        configValid := false
        runMark := false
        events := s.regs.events ||| 0x002#12 } } := by
  unfold failLoad writeResult loadFailed
  rw [linkWrite_nil h, raise_eq (by simp)]
  rfl

theorem exec_loadComplete (host : HostWrites) (s : State) : exec (.loadComplete host) s =
    .next (if s.regs.run = .loading then (completeLoad (s.hostWrites host)).2 else s.hostWrites host) := rfl

theorem completeLoad_of_fault {s s1 : State} {f : LoadFault} (h : loadSteps s = (some f, s1)) :
    completeLoad s = (some f, failLoad f s1) := by
  unfold completeLoad
  rw [h]

theorem completeLoad_of_done {s s1 : State} (h : loadSteps s = (none, s1)) :
    completeLoad s = (none, s1) := by
  unfold completeLoad
  rw [h]

/-- Settles O18: the tests of the setup block come before any other step. -/
theorem loadFailureWritesResultWord : Obligations.LoadFailureWritesResultWord := by
  intro host s f
  refine ⟨fun h => ?_, fun h hans hfault => ?_⟩
  · rw [exec_loadComplete, if_neg h]
    rfl
  · have hsteps : loadSteps (s.hostWrites host) = (some f, s.hostWrites host) := by
      rw [loadSteps, linkAccess_nil (by exact hans)]
      dsimp only
      have : firstFault (setupTests (s.hostWrites host)
          (readSetup (s.hostWrites host).ram (s.hostWrites host).regs.setupAddr)) = some f := hfault
      rw [this]
    rw [exec_loadComplete, if_pos h, completeLoad_of_fault hsteps]
    dsimp only
    rw [failLoad_nil (by exact hans)]
    rfl

/-! ### The acknowledgement of the fire -/

@[simp] theorem recomputedDoor_state (s : State) (e : Door) :
    (recomputedDoor s e).state = recomputedState s e := by
  unfold recomputedDoor
  split
  · next h => exact h.2.trans h.1.symm
  · split
    · next h => rw [h]; exact (enterOpen_spec _ _ _).1
    · simp

@[simp] theorem recomputedDoor_contact (s : State) (e : Door) :
    (recomputedDoor s e).contact = e.contact := by
  unfold recomputedDoor
  split
  · rfl
  · split <;> simp [enterOpen]

/-- Without a fire a recompute gives a door its resting state, or INACTIVE. -/
theorem recomputedState_of_no_fire {s : State} (h : fireActive s = false) (e : Door) :
    recomputedState s e = if gatesRun s = true then restingState e else .inactive := by
  unfold recomputedState restingState
  rw [h]
  cases gatesRun s <;> simp

/-- The state that an accepted acknowledgement leaves, before its record. -/
def acknowledged (s : State) : State :=
  { s with
    fire := { s.fire with state := .clear, musterPending := false }
    table := { s.table with
      workers := s.table.workers.map fun e => (e.1, { e.2 with muster := false }) }
    doors := s.doors.map (recomputedDoor { s with fire := { s.fire with state := .clear } }) }

theorem ackFire_of_hold {s : State} (hrun : s.regs.run ≠ .clearing) (hhold : s.fire.state = .hold) :
    ackFire s = report (.fireAck (s.fire.captured.getD ⟨0, 0⟩)
      (s.table.workers.filter fun e => e.2.muster).length s.fire.musterPending) (acknowledged s) := by
  unfold ackFire
  rw [if_pos ⟨hrun, hhold⟩]
  dsimp only
  rw [recomputeDoors_eq, musterCount, List.countP_eq_length_filter]
  rfl

/-- Settles O21: `ackFire_of_hold`, and the doors are recomputed without a fire. -/
theorem ackfireEndsTheHold : Obligations.AckfireEndsTheHold := by
  intro s
  refine ⟨fun h => ?_, fun hrun hhold => ?_⟩
  · refine congrArg Host.Outcome.next (if_neg ?_)
    rintro ⟨hrun, hhold⟩
    exact h.elim hrun fun hn => hn hhold
  · have honly := report_linkOnly (.fireAck (s.fire.captured.getD ⟨0, 0⟩)
      (s.table.workers.filter fun e => e.2.muster).length s.fire.musterPending) (acknowledged s)
    refine ⟨_, _, congrArg Host.Outcome.next (ackFire_of_hold hrun hhold), rfl, honly.fire, honly.table,
      fun d => ?_, honly.clock, honly.mode, honly.cal, honly.lines, honly.zones, honly.pay, honly.bells⟩
    have hdoor : (acknowledged s).doors[d] =
        recomputedDoor { s with fire := { s.fire with state := .clear } } s.doors[d] := by
      simp [acknowledged]
    rw [honly.doors, hdoor, recomputedDoor_state, recomputedDoor_mark, recomputedDoor_contact,
      recomputedState_of_no_fire rfl]
    exact ⟨rfl, rfl, rfl⟩

/-! ### The register window -/

/-- A word of flags is not 0 exactly when one of them is set. -/
theorem bne_zero_iff (x : BitVec 12) : (x != 0) = true ↔ ∃ k : Fin 12, x.getLsbD k.val = true := by
  rw [bne_iff_ne]
  constructor
  · intro h
    by_contra hn
    refine h (BitVec.eq_of_getLsbD_eq fun i hi => ?_)
    have := fun hk => hn ⟨⟨i, hi⟩, hk⟩
    simpa using this
  · rintro ⟨k, hk⟩ rfl
    simp at hk

theorem irqA_iff (s : State) : irqA s = true ↔ ∃ k : Fin 12, s.regs.events.getLsbD k.val = true ∧
    s.regs.eventEn.getLsbD k.val = true ∧ s.regs.eventLine.getLsbD k.val = false := by
  rw [irqA, bne_zero_iff]
  simp [and_assoc]

theorem irqB_iff (s : State) : irqB s = true ↔ ∃ k : Fin 12, s.regs.events.getLsbD k.val = true ∧
    s.regs.eventEn.getLsbD k.val = true ∧ s.regs.eventLine.getLsbD k.val = true := by
  rw [irqB, bne_zero_iff]
  simp [and_assoc]

theorem exec_registerWrite {s : State} (h : s.regs.run ≠ .clearing) (offset : Nat) (v : Word) :
    exec (.registerWrite offset 32 v) s = .next (writeRegister offset v s) :=
  congrArg Host.Outcome.next (if_neg fun hc => hc.elim h fun hn => hn rfl)

theorem clearEvents_eq {s : State} (h : s.regs.run ≠ .clearing) (v : Word) :
    clearEvents v s = { s with
      regs := { s.regs with events := s.regs.events &&& ~~~(v.setWidth 12) }
      link := { s.link with fill := if v.getLsbD 3 = true then 0 else s.link.fill } } := by
  unfold clearEvents
  rw [if_neg h]
  by_cases h3 : v.getLsbD 3 = true
  · rw [if_pos h3]
    exact if_pos h3
  · rw [if_neg h3]
    exact if_neg h3

/-- Off the registers' own offsets a write meets none. -/
theorem writeRegister_elsewhere {offset : Nat} (h : 0x14 ≤ offset ∨ offset % 4 ≠ 0) (v : Word)
    (s : State) : writeRegister offset v s = s := by
  unfold writeRegister
  rw [if_neg (by omega), if_neg (by omega), if_neg (by omega), if_neg (by omega), if_neg (by omega)]

/-- The number that CTL shows, and the range of each of its fields. -/
theorem ctlRead_toNat (s : State) : (ctlRead s).toNat =
      s.regs.run.code + 16 * bit s.regs.configValid + 32 * bit s.clock.valid +
        64 * s.clock.sync.code + 256 * bit (s.fire.state == .alarm) + 512 * bit (fireActive s) ∧
    s.regs.run.code ≤ 4 ∧ s.clock.sync.code ≤ 2 := by
  have hbit : ∀ b, bit b ≤ 1 := by decide
  have hrun : s.regs.run.code ≤ 4 := by cases s.regs.run <;> decide
  have hsync : s.clock.sync.code ≤ 2 := by cases s.clock.sync <;> decide
  have h1 := hbit s.regs.configValid
  have h2 := hbit s.clock.valid
  have h3 := hbit (s.fire.state == .alarm)
  have h4 := hbit (fireActive s)
  refine ⟨?_, hrun, hsync⟩
  unfold ctlRead
  rw [BitVec.toNat_ofNat, Nat.mod_eq_of_lt]
  omega

theorem getLsbD_eq_true_iff (x : Word) (k : Nat) : x.getLsbD k = true ↔ x.toNat / 2 ^ k % 2 = 1 := by
  rw [BitVec.getLsbD, Nat.testBit_eq_decide_div_mod_eq, decide_eq_true_iff]

theorem bit_eq_one_iff (b : Bool) : bit b = 1 ↔ b = true := by cases b <;> decide

/-- A bit of a word that is a flag's number is the flag. -/
theorem getLsbD_eq_of_bit {x : Word} {k : Nat} {b : Bool} (h : x.toNat / 2 ^ k % 2 = bit b) :
    x.getLsbD k = b := by
  rw [Bool.eq_iff_iff, getLsbD_eq_true_iff, h, bit_eq_one_iff]

/-- The fields of CTL as it is read. -/
theorem ctlRead_fields (s : State) :
    (ctlRead s).toNat % 8 = s.regs.run.code ∧ (ctlRead s).getLsbD 3 = false ∧
    (ctlRead s).getLsbD 4 = s.regs.configValid ∧ (ctlRead s).getLsbD 5 = s.clock.valid ∧
    (ctlRead s).toNat / 64 % 4 = s.clock.sync.code ∧
    ((ctlRead s).getLsbD 8 = true ↔ s.fire.state = .alarm) ∧
    ((ctlRead s).getLsbD 9 = true ↔ s.fire.state = .alarm ∨ s.fire.state = .hold) ∧
    (ctlRead s).toNat < 1024 := by
  obtain ⟨hnat, hrun, hsync⟩ := ctlRead_toNat s
  have hbit : ∀ b, bit b ≤ 1 := by decide
  have h1 := hbit s.regs.configValid
  have h2 := hbit s.clock.valid
  have h3 := hbit (s.fire.state == .alarm)
  have h4 := hbit (fireActive s)
  have hnone : bit false = 0 := rfl
  have halarm : (ctlRead s).getLsbD 8 = (s.fire.state == .alarm) := getLsbD_eq_of_bit (by omega)
  have hfire : (ctlRead s).getLsbD 9 = fireActive s := getLsbD_eq_of_bit (by omega)
  refine ⟨by omega, getLsbD_eq_of_bit (by omega), getLsbD_eq_of_bit (by omega),
    getLsbD_eq_of_bit (by omega), by omega, ?_, ?_, by omega⟩
  · rw [halarm, beq_iff_eq]
  · rw [hfire, fireActive]
    cases s.fire.state <;> decide

/-- A CTL write with the ACKFIRE bit alone. -/
theorem writeRegister_ackfire (s : State) : writeRegister 0x00 0x10 s = ackFire s := by
  simp [writeRegister, ctlWrite_eq, ctlBefore]

/-- Settles O22: each write by its offset and its command bits, each read by its register. -/
theorem registerWritesActByOffset : Obligations.RegisterWritesActByOffset := by
  intro s v
  refine ⟨fun offset width h => congrArg Host.Outcome.next (if_pos h),
    fun h => congrArg Host.Outcome.next (if_pos h), fun h => ?writes, ctlRead_fields s, rfl, ?_, ?_, ?_,
    fun h => ?invalid, fun h hlast => ?valid, fun offset h1 h2 => ?elsewhere, irqA_iff s, irqB_iff s⟩
  case writes =>
    simp only [exec_registerWrite h]
    refine ⟨rfl, rfl, rfl, rfl, rfl, rfl, congrArg Host.Outcome.next (writeRegister_ackfire s), rfl, rfl,
      ?_, ?_, rfl, rfl, fun offset ho => ?_⟩
    · exact congrArg Host.Outcome.next (clearEvents_eq h v)
    · exact congrArg Host.Outcome.next (clearEvents_eq h v)
    · rw [writeRegister_elsewhere ho]
  case invalid =>
    simp [readRegister, h]
  case valid =>
    have : s.clock.now.sec < 2 ^ 32 := by
      unfold Config.lastSecond at hlast
      omega
    simpa [readRegister, h, BitVec.toNat_ofNat] using this
  case elsewhere =>
    unfold readRegister
    rw [if_neg (by omega), if_neg (by omega), if_neg (by omega), if_neg (by omega), if_neg (by omega),
      if_neg (by omega)]
  all_goals rfl

end Sys2Proof.Machine
end

section
/-! CERTIFICATE. The plant clock: the end of a beat, expiries, and the slew (1.1, 1.3, 1.5, 5.8). -/

namespace Sys2Proof.Machine

/-! ### Expiries -/

theorem exec_slewEnd (s : State) : exec .slewEnd s = .next (endSlew s) := rfl

/-- Settles O25: each expiry acts where it stands, and the leading edge takes plant time. -/
theorem clockExpiriesAct : Obligations.ClockExpiriesAct := by
  intro s
  refine ⟨fun w hw h0 => ?_, fun w hw h0 => ?_, fun h => ?_, fun hl h0 => ?_, fun h => ?_, fun _ => rfl⟩
  · rw [exec_slewEnd, endSlew, hw]
    exact congrArg Host.Outcome.next (if_pos h0)
  · rw [exec_slewEnd, endSlew, hw]
    exact congrArg Host.Outcome.next (if_neg h0)
  · rw [exec_slewEnd, endSlew, h]
  · refine congrArg Host.Outcome.next ?_
    rw [endHoldover, if_pos ⟨hl, h0⟩, changeSync, if_neg (by rw [hl]; decide), hl]
  · refine congrArg Host.Outcome.next (if_neg ?_)
    rintro ⟨hl, h0⟩
    exact h.elim (· hl) (· h0)

/-! ### The slew -/

/-- What a slew holds after `k` beats. -/
theorem slew_beat_iterate {c : Clock} {w : Slew} (h : c.slew = some w) (k : Nat) :
    (Clock.beat^[k] c).slew = some { w with left := w.left - k, extra := w.extra - k } := by
  induction k with
  | zero => exact h
  | succ k ih =>
    rw [Function.iterate_succ_apply']
    simp only [Clock.beat, ih, Option.map_some, Slew.beat]
    congr 2

/-- The cycles that the share of one slewed beat takes in full. -/
theorem sum_extra (base extra n : Nat) (h : extra ≤ n) :
    (Finset.range n).sum (fun k => base + if extra - k = 0 then 0 else 1) = n * base + extra := by
  induction n with
  | zero => simp at h ⊢; omega
  | succ n ih =>
    rw [Finset.sum_range_succ]
    by_cases he : extra ≤ n
    · rw [ih he, if_pos (by omega)]
      ring
    · have hfull : (Finset.range n).sum (fun k => base + if extra - k = 0 then 0 else 1) =
          (Finset.range n).sum fun _ => base + 1 :=
        Finset.sum_congr rfl fun k hk => by rw [if_neg (by have := Finset.mem_range.1 hk; omega)]
      rw [hfull, if_neg (by omega), Finset.sum_const, Finset.card_range, smul_eq_mul,
        show extra = n + 1 by omega]
      ring

/-- Settles O26: a beat of the slew takes the base share and, while one is left, an extra cycle. -/
theorem slewRemovesTheWholeDeviation : Obligations.SlewRemovesTheWholeDeviation := by
  intro d c h3 h32 hslew
  have hiter := slew_beat_iterate (w := ⟨decide (0 < d), d.natAbs * 2048 / 960, 960,
    d.natAbs * 2048 % 960⟩) hslew
  have hshare : ∀ k < 960, slewShare (Clock.beat^[k] c) =
      (if 0 < d then 1 else -1) *
        ((d.natAbs * 2048 / 960 + if d.natAbs * 2048 % 960 - k = 0 then 0 else 1 : Nat) : Int) := by
    intro k hk
    simp only [slewShare, hiter]
    rw [if_neg (by omega), Nat.cast_add, Nat.cast_ite, Nat.cast_zero, Nat.cast_one]
    by_cases hd : 0 < d
    · rw [if_pos (decide_eq_true hd), if_pos hd, one_mul]
    · rw [if_neg (by simpa using hd), if_neg hd, neg_one_mul]
  constructor
  · rw [Finset.sum_congr rfl fun k hk => hshare k (Finset.mem_range.1 hk), ← Finset.mul_sum,
      ← Nat.cast_sum, sum_extra _ _ _ (by omega), Nat.div_add_mod]
    by_cases hd : 0 < d
    · rw [if_pos hd]
      omega
    · rw [if_neg hd]
      omega
  · rw [hiter, Option.map_some]
    exact congrArg some (Nat.sub_self 960)

/-! ### The end of a beat -/

/-- What a beat end finds at a door, with the conditions spelled out. -/
theorem finds_eq (rb : Relay) (e : Door) : e.finds rb =
    if (e.mark = false ∧ e.found = none ∧ rb ≠ e.cmd) ∧ e.settle = some 1 then
      some ⟨.settle, e.cmd, rb⟩
    else if (e.mark = false ∧ e.found = none ∧ rb ≠ e.cmd) ∧ e.entry.supervised = true ∧
        e.settle = none ∧ 3 ≤ e.disagree then some ⟨.drift, e.cmd, rb⟩
    else none := by
  unfold Door.finds
  by_cases h : e.mark = true ∨ e.found.isSome = true ∨ rb = e.cmd
  · have hn : ¬ (e.mark = false ∧ e.found = none ∧ rb ≠ e.cmd) := by
      rintro ⟨hm, hf, hr⟩
      simp [hm, hf, hr] at h
    rw [if_pos h, if_neg fun x => hn x.1, if_neg fun x => hn x.1]
  · have hd : e.mark = false ∧ e.found = none ∧ rb ≠ e.cmd := by
      obtain ⟨hm, hf, hr⟩ : ¬ e.mark = true ∧ ¬ e.found.isSome = true ∧ ¬ rb = e.cmd := by
        simpa [not_or] using h
      exact ⟨by simpa using hm, by simpa using hf, hr⟩
    rw [if_neg h]
    simp only [hd, true_and, ne_eq, not_false_eq_true]

theorem tick_eq (n : Option Nat) : tick n = n.map (· - 1) := by cases n <;> rfl

/-- A door at a beat end, with the conditions spelled out. -/
theorem beat_eq (b : Bool) (e : Door) :
    let readback := if b = true then Relay.released else Relay.locked
    let differs := e.mark = false ∧ e.found = none ∧ readback ≠ e.cmd
    let settles := differs ∧ e.settle = some 1
    let drifts := differs ∧ e.entry.supervised = true ∧ e.settle = none ∧ 3 ≤ e.disagree
    e.beat b = { e with
      release := e.release.map (· - 1)
      held := e.held.map (· - 1)
      settle := if settles then none else e.settle.map (· - 1)
      readback := readback
      disagree :=
        if e.entry.supervised = false ∨ e.settle ≠ none then e.disagree
        else if readback = e.cmd ∨ 3 ≤ e.disagree then 0 else e.disagree + 1
      found := if settles then some ⟨.settle, e.cmd, readback⟩
        else if drifts then some ⟨.drift, e.cmd, readback⟩ else e.found } := by
  intro readback differs settles drifts
  have hfinds := finds_eq readback e
  have hsettle : (if (e.finds readback).any (·.kind == .settle) then none else tick e.settle) =
      if settles then none else e.settle.map (· - 1) := by
    rw [tick_eq, hfinds]
    by_cases hs : settles
    · rw [if_pos hs, if_pos hs]
      rfl
    · rw [if_neg hs, if_neg hs]
      by_cases hd : drifts
      · rw [if_pos hd]
        rfl
      · rw [if_neg hd]
        rfl
  have hfound : (if e.found.isSome then e.found else e.finds readback) =
      if settles then some ⟨.settle, e.cmd, readback⟩
      else if drifts then some ⟨.drift, e.cmd, readback⟩ else e.found := by
    by_cases he : e.found = none
    · rw [if_neg (by simp [he]), hfinds]
      by_cases hs : settles
      · rw [if_pos hs, if_pos hs]
      · rw [if_neg hs, if_neg hs]
        by_cases hd : drifts
        · rw [if_pos hd, if_pos hd]
        · rw [if_neg hd, if_neg hd, he]
    · have hn : ¬ differs := fun x => he x.2.1
      rw [if_neg fun x : settles => hn x.1, if_neg fun x : drifts => hn x.1,
        if_pos (Option.isSome_iff_ne_none.2 he)]
  unfold Door.beat
  dsimp only
  rw [tick_eq, tick_eq]
  exact congrArg₂ (fun a b => ({ e with
    release := e.release.map (· - 1)
    held := e.held.map (· - 1)
    settle := a
    readback := readback
    disagree :=
      if e.entry.supervised = false ∨ e.settle ≠ none then e.disagree
      else if readback = e.cmd ∨ 3 ≤ e.disagree then 0 else e.disagree + 1
    found := b } : Door)) hsettle hfound

theorem atEnd_iff (c : Clock) : atEnd c = true ↔ c.now.sec = Config.lastSecond ∧ c.now.beat = 15 := by
  simp [atEnd]

/-- While the clock is invalid or at its end, counting stands. -/
theorem countBeat_at_rest {s : State} (h : s.clock.valid = false ∨
    (s.clock.now.sec = Config.lastSecond ∧ s.clock.now.beat = 15)) : countBeat s = s := by
  unfold countBeat
  rw [if_neg]
  rw [Bool.and_eq_true, Bool.not_eq_true']
  rintro ⟨hv, he⟩
  rcases h with h | h
  · rw [h] at hv
    cases hv
  · rw [(atEnd_iff _).2 h] at he
    cases he

theorem countBeat_of_valid {s : State} (hv : s.clock.valid = true)
    (he : ¬ (s.clock.now.sec = Config.lastSecond ∧ s.clock.now.beat = 15)) :
    countBeat s =
      let s1 := { s with clock := { s.clock with now := nextBeat s.clock.now } }
      if (nextBeat s.clock.now).beat = 0 then
        markDeadlines (nextBeat s.clock.now).sec (countBells (nextBeat s.clock.now).sec
          (if (nextBeat s.clock.now).sec % Config.daySeconds = 0 then
            midnight (dayOf (nextBeat s.clock.now).sec) s1 else s1))
      else s1 := by
  unfold countBeat
  rw [if_pos]
  rw [Bool.and_eq_true, Bool.not_eq_true', hv]
  exact ⟨rfl, by rw [← Bool.not_eq_true, atEnd_iff]; exact he⟩

/-- Within a second, counting moves the beat alone. -/
theorem countBeat_within {s : State} (hv : s.clock.valid = true)
    (he : ¬ (s.clock.now.sec = Config.lastSecond ∧ s.clock.now.beat = 15))
    (hb : s.clock.now.beat ≠ 15) : countBeat s =
      { s with clock := { s.clock with now := ⟨s.clock.now.sec, s.clock.now.beat + 1⟩ } } := by
  have hnext : nextBeat s.clock.now = ⟨s.clock.now.sec, s.clock.now.beat + 1⟩ := if_neg hb
  rw [countBeat_of_valid hv he, hnext]
  exact if_neg (Nat.succ_ne_zero _)

/-- The plan entries and H at a new second. -/
theorem countBells_eq (sec : Nat) (s : State) : countBells sec s = { s with bells := { s.bells with
    passed := max s.bells.passed sec
    due := if s.bells.passed < sec ∧ gatesRun s = true then
        s.bells.due ++ ((s.bells.plan.filter fun e => sec / 86400 * 86400 + e.sec == sec).map
          fun e => (sec / 86400, e))
      else s.bells.due } } := by
  unfold countBells
  by_cases h : s.bells.passed < sec
  · rw [if_pos h, max_eq_right h.le]
    by_cases hg : gatesRun s = true
    · rw [if_pos hg, if_pos ⟨h, hg⟩]
      rfl
    · rw [if_neg hg, if_neg fun x => hg x.2]
  · rw [if_neg h, max_eq_left (by omega), if_neg fun x => h x.1]

/-- A new second: its midnight, its bells and its deadlines. -/
theorem countBeat_second {s : State} (hv : s.clock.valid = true)
    (he : ¬ (s.clock.now.sec = Config.lastSecond ∧ s.clock.now.beat = 15))
    (hb : s.clock.now.beat = 15) :
    let sec := s.clock.now.sec + 1
    countBeat s = markDeadlines sec (countBells sec { s with
      clock := { s.clock with now := ⟨sec, 0⟩ }
      cal := { s.cal with exceptions :=
        if sec % 86400 = 0 then s.cal.exceptions.filter fun e => sec / 86400 ≤ e.1 + 7
        else s.cal.exceptions } }) := by
  have hnext : nextBeat s.clock.now = ⟨s.clock.now.sec + 1, 0⟩ := if_pos hb
  rw [countBeat_of_valid hv he, hnext]
  dsimp only
  rw [if_pos rfl]
  congr 2
  by_cases hd : (s.clock.now.sec + 1) % 86400 = 0
  · rw [if_pos hd]
    exact if_pos hd
  · rw [if_neg hd]
    exact if_neg hd

/-- Counting touches plant time, the calendar, H, the entries reached, and the worker table. -/
theorem countBeat_frame (s : State) : ∃ (now : Stamp) (cal : Calendar) (passed : Nat)
    (due : List (Nat × BellEntry)) (table : WorkerTable), countBeat s = { s with
      clock := { s.clock with now := now }
      cal := cal
      bells := { s.bells with passed := passed, due := due }
      table := table } := by
  by_cases hrest : s.clock.valid = false ∨
      (s.clock.now.sec = Config.lastSecond ∧ s.clock.now.beat = 15)
  · exact ⟨_, _, _, _, _, countBeat_at_rest hrest⟩
  · obtain ⟨hv, he⟩ := not_or.1 hrest
    have hv : s.clock.valid = true := by simpa using hv
    by_cases hb : s.clock.now.beat = 15
    · rw [countBeat_second hv he hb, countBells_eq]
      exact ⟨_, _, _, _, _, rfl⟩
    · exact ⟨_, _, _, _, _, countBeat_within hv he hb⟩

theorem exec_beatEnd {s : State} (h : s.regs.run ≠ .clearing) (readbacks : DoorPins) :
    exec (.beatEnd readbacks) s = .next (mapCircuits Circuit.beat
      (beatDoors readbacks (countBeat { s with clock := s.clock.beat }))) :=
  congrArg Host.Outcome.next ((beatEnds_eq readbacks s).trans (if_neg h))

/-- Settles O24: the three ways of `countBeat`, and `beat_eq` at each door. -/
theorem beatEndCountsOn : Obligations.BeatEndCountsOn := by
  intro readbacks s
  refine ⟨fun h => congrArg Host.Outcome.next ((beatEnds_eq readbacks s).trans (if_pos h)), fun h => ?_⟩
  refine ⟨_, exec_beatEnd h readbacks, fun hv he => ⟨fun hb => ?within, fun hb => ?second⟩,
    fun hrest => ?rest, ?frame⟩
  case within =>
    rw [countBeat_within (s := { s with clock := s.clock.beat }) hv he hb]
    exact ⟨rfl, rfl, rfl, rfl, rfl⟩
  case second =>
    rw [countBeat_second (s := { s with clock := s.clock.beat }) hv he hb, countBells_eq]
    exact ⟨rfl, rfl, rfl, rfl, rfl⟩
  case rest =>
    rw [countBeat_at_rest (s := { s with clock := s.clock.beat }) hrest]
    exact ⟨rfl, rfl, rfl, rfl, rfl⟩
  case frame =>
    obtain ⟨now, cal, passed, due, table, heq⟩ := countBeat_frame { s with clock := s.clock.beat }
    rw [heq]
    refine ⟨rfl, rfl, rfl, rfl, rfl, rfl, rfl, rfl, rfl, fun d => ?_, fun l => ?_, fun c => ?_, rfl, rfl, rfl,
      rfl, rfl, rfl, rfl, rfl⟩
    · rw [mapCircuits_doors, beatDoors_door]
      exact beat_eq _ _
    · simp [beatDoors, Line.beat, tick_eq]
    · simp [beatDoors]

end Sys2Proof.Machine
end

section
/-! SUPPORT. A step of plant time (1.4): what the bell notice sounds and skips, the deadlines it acts on,
and what both leave as it was. -/

namespace Sys2Proof.Machine

/-! ### What the punch logic leaves -/

/-- `t` differs from `s` in the worker records, the bells, the link and the flags raised, and no more. -/
structure StepFrame (s t : State) : Prop where
  clock : t.clock = s.clock
  mode : t.mode = s.mode
  cal : t.cal = s.cal
  lines : t.lines = s.lines
  zones : t.zones = s.zones
  doors : t.doors = s.doors
  pay : t.pay = s.pay
  fire : t.fire = s.fire
  index : t.table.index = s.table.index
  capacity : t.table.capacity = s.table.capacity
  flags : ∀ e : Event, flagSet e s = true → flagSet e t = true
  gates : gatesRun t = gatesRun s

theorem StepFrame.refl (s : State) : StepFrame s s :=
  ⟨rfl, rfl, rfl, rfl, rfl, rfl, rfl, rfl, rfl, rfl, fun _ h => h, rfl⟩

theorem StepFrame.trans {s t u : State} (h : StepFrame s t) (k : StepFrame t u) : StepFrame s u :=
  ⟨k.clock.trans h.clock, k.mode.trans h.mode, k.cal.trans h.cal, k.lines.trans h.lines,
    k.zones.trans h.zones, k.doors.trans h.doors, k.pay.trans h.pay, k.fire.trans h.fire,
    k.index.trans h.index, k.capacity.trans h.capacity, fun e he => k.flags e (h.flags e he),
    k.gates.trans h.gates⟩

theorem LinkOnly.stepFrame {s t : State} (h : LinkOnly s t)
    (hflags : ∀ e : Event, flagSet e s = true → flagSet e t = true) : StepFrame s t :=
  ⟨h.clock, h.mode, h.cal, h.lines, h.zones, h.doors, h.pay, h.fire, by rw [h.table], by rw [h.table],
    hflags, h.gatesRun⟩

theorem LinkStep.stepFrame {s t : State} (h : LinkStep s t) : StepFrame s t :=
  h.toLinkOnly.stepFrame h.flags

theorem handOver_stepFrame (reserved : Bool) (t : Stamp) (b : RecordBody) (s : State) :
    StepFrame s (handOver reserved t b s) :=
  (handOver_linkOnly reserved t b s).stepFrame fun _ => handOver_flags reserved t b

theorem report_stepFrame (b : RecordBody) (s : State) : StepFrame s (report b s) :=
  handOver_stepFrame false _ b s

theorem raise_stepFrame (e : Event) (s : State) : StepFrame s (raise e s) :=
  (raise_linkStep e s).stepFrame

theorem stepFrame_of_bells (s : State) (b : Bells) : StepFrame s { s with bells := b } :=
  { StepFrame.refl s with }

/-- The punch logic leaves the bells too. -/
structure PunchStep (s t : State) : Prop extends StepFrame s t where
  bells : t.bells = s.bells

theorem PunchStep.refl (s : State) : PunchStep s s := ⟨.refl s, rfl⟩

theorem PunchStep.trans {s t u : State} (h : PunchStep s t) (k : PunchStep t u) : PunchStep s u :=
  ⟨h.toStepFrame.trans k.toStepFrame, k.bells.trans h.bells⟩

theorem report_punchStep (b : RecordBody) (s : State) : PunchStep s (report b s) :=
  ⟨report_stepFrame b s, (report_linkOnly b s).bells⟩

theorem setWorkers_punchStep (s : State) (l : List (Nat × Worker)) : PunchStep s (setWorkers s l) :=
  { PunchStep.refl s with }

theorem autoClose_punchStep (slot : Nat) (cause : CloseCause) (s : State) :
    PunchStep s (autoClose slot cause s) := by
  unfold autoClose
  split
  · exact .refl s
  · split
    · exact .refl s
    · exact (setWorkers_punchStep s _).trans (report_punchStep _ _)

theorem modInterval_punchStep (slot : Nat) (f : OpenInterval → OpenInterval) (s : State) :
    PunchStep s (modInterval slot f s) := by
  unfold modInterval
  split
  · exact .refl s
  · split
    · exact .refl s
    · exact setWorkers_punchStep s _

theorem actOnDeadline_punchStep (slot : Nat) (s : State) : PunchStep s (actOnDeadline slot s) := by
  have h := modInterval_punchStep slot (fun i => { i with due := false }) s
  unfold actOnDeadline
  dsimp only
  split
  · exact h
  · split
    · exact h.trans (autoClose_punchStep _ _ _)
    · exact h.trans (modInterval_punchStep _ _ _)

theorem actOnDeadlines_punchStep : ∀ (slots : List Nat) (s : State),
    PunchStep s (actOnDeadlines slots s)
  | [], s => .refl s
  | k :: rest, s => (actOnDeadline_punchStep k s).trans (actOnDeadlines_punchStep rest _)

/-! ### Deadlines acted on while the gates run -/

/-- A slot without an ON worker has no deadline to act on. -/
theorem actOnDeadline_absent {slot : Nat} {s : State}
    (h : ∀ w, workerAt s slot = some w → w.interval = none) : actOnDeadline slot s = s := by
  have hmod : ∀ f : OpenInterval → OpenInterval, modInterval slot f s = s := by
    intro f
    unfold modInterval
    cases hw : workerAt s slot with
    | none => rfl
    | some w => simp only [h w hw]
  have hclose : autoClose slot .deadline s = s := by
    unfold autoClose
    cases hw : workerAt s slot with
    | none => rfl
    | some w => simp only [h w hw]
  unfold actOnDeadline
  simp only [hmod, hclose]
  split
  · rfl
  · split <;> rfl

/-- Deadlines acted on in turn, in the words of the statements. -/
theorem actOnDeadlines_eq : ∀ (slots : List Nat) {s : State}, gatesRun s = true →
    actOnDeadlines slots s = deadlinesActed slots s
  | [], _, _ => rfl
  | k :: rest, s, hg => by
    have hhead : actOnDeadline k s = (workerAt s k).elim s fun w =>
        w.interval.elim s fun i => deadlineActed k w i s := by
      cases hw : workerAt s k with
      | none => exact actOnDeadline_absent fun w h => by rw [hw] at h; cases h
      | some w =>
        cases hi : w.interval with
        | none =>
          rw [Option.elim_some, hi]
          exact actOnDeadline_absent fun v h => by rw [hw] at h; cases h; exact hi
        | some i =>
          rw [Option.elim_some, hi]
          exact actOnDeadline_eq hg hw hi
    have hgates := (actOnDeadline_punchStep k s).gates.trans hg
    calc actOnDeadlines (k :: rest) s
        = deadlinesActed rest (actOnDeadline k s) := actOnDeadlines_eq rest hgates
      _ = deadlinesActed (k :: rest) s := by rw [hhead]; rfl

/-! ### The bell notice -/

theorem isEvac_sound (p : Pattern) (seconds : Nat) (c : Circuit) :
    (c.sound p seconds).isEvac = c.isEvac := by cases c <;> rfl

theorem soundEntry_circuit (e : BellEntry) (s : State) (k : CircuitNo) :
    (soundEntry e s).bells.circuits[k] =
      if e.circuits.getLsbD k.val then s.bells.circuits[k].sound e.pattern e.duration
      else s.bells.circuits[k] := forCircuits_circuit _ _ _ k

/-- The sounding that an entry starts. -/
def BellEntry.sounding (e : BellEntry) : Circuit :=
  let length := if e.pattern = .triple then 80 else e.duration * 16
  .sounding e.pattern length length

theorem sound_eq {c : Circuit} (e : BellEntry) (h : c.isEvac = false) :
    c.sound e.pattern e.duration = e.sounding := by
  have hbeats : soundingBeats e.pattern e.duration =
      if e.pattern = .triple then 80 else e.duration * 16 := by
    cases e.pattern <;> rfl
  cases c with
  | evacuate n => cases h
  | idle | sounding => simp only [Circuit.sound, BellEntry.sounding, hbeats]

theorem sound_evac {c : Circuit} (p : Pattern) (seconds : Nat) (h : c.isEvac = true) :
    c.sound p seconds = c := by
  cases c with
  | evacuate n => rfl
  | idle | sounding => cases h

/-- Of the entries sounded in turn on a circuit, the last stands. -/
theorem foldl_soundEntry_circuit (k : CircuitNo) : ∀ (l : List BellEntry) (s : State),
    (l.foldl (fun s e => soundEntry e s) s).bells.circuits[k] =
      if s.bells.circuits[k].isEvac = true then s.bells.circuits[k]
      else (l.filter fun e => e.circuits.getLsbD k.val).getLast?.elim s.bells.circuits[k]
        BellEntry.sounding
  | [], s => by simp
  | e :: rest, s => by
    have ih := foldl_soundEntry_circuit k rest (soundEntry e s)
    rw [List.foldl_cons, ih, soundEntry_circuit]
    cases hmask : e.circuits.getLsbD k.val with
    | false =>
      simp only [Bool.false_eq_true, if_false]
      rw [List.filter_cons_of_neg (by rw [hmask]; decide)]
    | true =>
      simp only [if_true, isEvac_sound]
      by_cases hevac : s.bells.circuits[k].isEvac = true
      · rw [if_pos hevac, if_pos hevac, sound_evac _ _ hevac]
      · rw [if_neg hevac, if_neg hevac, sound_eq e (by simpa using hevac),
          List.filter_cons_of_pos (by exact hmask), List.getLast?_cons]
        cases (rest.filter fun e => e.circuits.getLsbD k.val).getLast? <;> rfl

theorem soundEntry_eq (e : BellEntry) (s : State) : soundEntry e s =
    { s with bells := { s.bells with circuits := (soundEntry e s).bells.circuits } } :=
  forCircuits_eq _ _ _

theorem foldl_soundEntry_eq : ∀ (l : List BellEntry) (s : State),
    l.foldl (fun s e => soundEntry e s) s = { s with bells := { s.bells with
      circuits := (l.foldl (fun s e => soundEntry e s) s).bells.circuits } }
  | [], _ => rfl
  | e :: rest, s => by
    rw [List.foldl_cons, foldl_soundEntry_eq rest, soundEntry_eq e s]

/-- Entries reached in turn: those that should sound do. -/
theorem foldl_reachEntry_eq : ∀ (l : List (Nat × Nat × BellEntry)) (s : State),
    l.foldl (fun s x => reachEntry x.1 x.2.2 s) s =
      ((l.filter fun x => bellsSound s && entryOnDay s.cal x.1 x.2.2).map fun x => x.2.2).foldl
        (fun s e => soundEntry e s) s
  | [], _ => rfl
  | x :: rest, s => by
    rw [List.foldl_cons, foldl_reachEntry_eq rest]
    cases h : bellsSound s && entryOnDay s.cal x.1 x.2.2 with
    | false =>
      rw [List.filter_cons_of_neg (by simp [h])]
      unfold reachEntry
      rw [h]
      rfl
    | true =>
      rw [List.filter_cons_of_pos (p := fun x : Nat × Nat × BellEntry =>
        bellsSound s && entryOnDay s.cal x.1 x.2.2) h]
      have hreach : reachEntry x.1 x.2.2 s = soundEntry x.2.2 s := by
        unfold reachEntry
        rw [h]
        rfl
      have hsame : ∀ y : Nat × Nat × BellEntry,
          (bellsSound (soundEntry x.2.2 s) && entryOnDay (soundEntry x.2.2 s).cal y.1 y.2.2) =
            (bellsSound s && entryOnDay s.cal y.1 y.2.2) := fun y => by
        rw [soundEntry_eq]
        rfl
      simp only [hreach, hsame, List.map_cons, List.foldl_cons]

end Sys2Proof.Machine
end

section
/-! SUPPORT. The request in progress is a bystander of the journal, the punch logic and the doors: what they
do is the same whichever request is in progress. A block that acts at the take therefore acts as on the
state in which no request is in progress (R166). -/

namespace Sys2Proof.Machine

/-- The state with another request in progress. -/
def withRequest (q : Option Request) (s : State) : State :=
  { s with link := { s.link with request := q } }

theorem beginRequest_eq (r : Req) (notify : Bool) (s : State) :
    beginRequest r notify s = withRequest (some ⟨r, notify, .taken, 0, 0⟩) s := rfl

theorem withRequest_self (s : State) : withRequest s.link.request s = s := rfl

theorem answered_withRequest (su : Setup) (n : Bool) (st : Status) (count resume : Option Nat)
    (q : Option Request) (s : State) :
    answered su n st count resume (withRequest q s) = answered su n st count resume s := by
  unfold answered withRequest
  rfl

/-- The state `o` with what the journal reads and writes as it is in `s`, and another request in
progress. -/
def beside (o : State) (q : Option Request) (s : State) : State :=
  { o with
    clock := { o.clock with now := s.clock.now }
    table := { o.table with capacity := s.table.capacity }
    link := { s.link with request := q }
    regs := s.regs
    ram := s.ram
    linkAnswers := s.linkAnswers }

/-- A link operation leaves the rest of the state. -/
theorem beside_eq_withRequest {s t : State} (h : LinkOnly s t) (q : Option Request) :
    beside s q t = withRequest q t := by
  obtain ⟨hclock, hmode, hcal, htable, hlines, hzones, hdoors, hpay, hbells, hfire, hpending, -⟩ := h
  cases s
  cases t
  subst hclock hmode hcal htable hlines hzones hdoors hpay hbells hfire hpending
  rfl

variable (o : State) (q : Option Request)

/-! ### Events and accesses -/

theorem raise_beside (e : Event) (s : State) :
    raise e (beside o q s) = beside o q (raise e s) := by
  have hrun : (beside o q s).regs = s.regs := rfl
  unfold raise
  rw [hrun]
  split <;> rfl

theorem linkFail_beside (s : State) : linkFail (beside o q s) = beside o q (linkFail s) := by
  unfold linkFail
  rw [raise_beside]
  generalize raise .linkError s = u
  have hrun : (beside o q u).regs = u.regs := rfl
  dsimp only
  rw [hrun]
  split <;> rfl

theorem linkAccess_beside (s : State) :
    linkAccess (beside o q s) = ((linkAccess s).1, beside o q (linkAccess s).2) := by
  have hanswers : (beside o q s).linkAnswers = s.linkAnswers := rfl
  unfold linkAccess
  rw [hanswers]
  split
  · rfl
  · rfl
  · next rest _ =>
    exact congrArg (Prod.mk false) (linkFail_beside o q { s with linkAnswers := rest })

theorem linkWrite_beside (base : Word) (off : Nat) (b : List Byte) (s : State) :
    linkWrite base off b (beside o q s) =
      ((linkWrite base off b s).1, beside o q (linkWrite base off b s).2) := by
  unfold linkWrite
  rw [linkAccess_beside]
  rcases linkAccess s with ⟨_ | _, u⟩ <;> rfl

/-! ### The journal -/

theorem testEntries_beside (su : Setup) : ∀ (l : List Nat) (s : State),
    testEntries su l (beside o q s) =
      ((testEntries su l s).1, beside o q (testEntries su l s).2)
  | [], _ => rfl
  | k :: rest, s => by
    rw [testEntries, testEntries, linkAccess_beside]
    rcases linkAccess s with ⟨_ | _, u⟩
    · rfl
    · dsimp only
      rw [testEntries_beside su rest u]
      have hcell : readCell (beside o q u).ram
          (addrAt su.journal (journalOffset su (beside o q u).link.journalPos k)) =
          readCell u.ram (addrAt su.journal (journalOffset su u.link.journalPos k)) := rfl
      rcases testEntries su rest u with ⟨_ | _ | _, v⟩
      · dsimp only
        rw [hcell]
        split <;> rfl
      · rfl
      · rfl

theorem writeEntries_beside (su : Setup) (r : Record) : ∀ (l : List Nat) (s : State),
    writeEntries su r l (beside o q s) =
      ((writeEntries su r l s).1, beside o q (writeEntries su r l s).2)
  | [], _ => rfl
  | k :: rest, s => by
    have hpos : (beside o q s).link.journalPos = s.link.journalPos := rfl
    rw [writeEntries, writeEntries, hpos, linkWrite_beside]
    dsimp only
    rcases linkWrite su.journal (journalOffset su s.link.journalPos k + 1) (r.entryBytes k) s with
      ⟨_ | _, u⟩
    · rfl
    · dsimp only
      rw [linkWrite_beside]
      rcases linkWrite su.journal (journalOffset su s.link.journalPos k) [0xF1] u with ⟨_ | _, v⟩
      · rfl
      · exact writeEntries_beside su r rest
          { v with link := { v.link with contWritten := true } }

theorem leaveQueue_beside (su : Setup) (n : Nat) (s : State) :
    leaveQueue su n (beside o q s) = beside o q (leaveQueue su n s) := by
  unfold leaveQueue
  have hfill : (beside o q s).link.fill = s.link.fill := rfl
  dsimp only
  rw [hfill]
  split
  · exact raise_beside o q .journal { s with link := { s.link with
      queue := s.link.queue.tail
      contWritten := false
      journalPos := (s.link.journalPos + n) % 2 ^ su.journalLog
      fill := satAdd (2 ^ su.journalLog) s.link.fill n } }
  · rfl

theorem tryWriteHead_beside (s : State) :
    tryWriteHead (beside o q s) = ((tryWriteHead s).1, beside o q (tryWriteHead s).2) := by
  have hqueue : (beside o q s).link.queue = s.link.queue := rfl
  have hsetup : (beside o q s).link.setup = s.link.setup := rfl
  have hcont : (beside o q s).link.contWritten = s.link.contWritten := rfl
  unfold tryWriteHead
  rw [hqueue, hsetup, hcont]
  rcases s.link.queue with _ | ⟨r, rest⟩
  · rfl
  rcases s.link.setup with _ | su
  · rfl
  dsimp only
  rw [testEntries_beside]
  rcases testEntries su (if (r.body.entries == 2 && !s.link.contWritten) = true then [0, 1] else [0]) s
    with ⟨_ | _ | _, u⟩
  · dsimp only
    rw [writeEntries_beside]
    rcases writeEntries su r (if (r.body.entries == 2) = true then [1, 0] else [0]) u with ⟨_ | _ | _, v⟩
    · exact congrArg (Prod.mk WriteEnd.wrote) (leaveQueue_beside o q su _ v)
    · rfl
    · rfl
  · rfl
  · rfl

theorem writeHeads_beside : ∀ (n : Nat) (s : State),
    writeHeads n (beside o q s) = beside o q (writeHeads n s)
  | 0, _ => rfl
  | n + 1, s => by
    have hqueue : (beside o q s).link.queue = s.link.queue := rfl
    rw [writeHeads, writeHeads, hqueue, tryWriteHead_beside]
    split
    · rfl
    · rcases tryWriteHead s with ⟨_ | _ | _, u⟩
      · exact writeHeads_beside n u
      · rfl
      · rfl

theorem beginWrites_beside (s : State) :
    beginWrites (beside o q s) = beside o q (beginWrites s) := by
  have hrun : (beside o q s).regs = s.regs := rfl
  unfold beginWrites
  rw [hrun, tryWriteHead_beside]
  split
  · rcases tryWriteHead s with ⟨_ | _ | _, u⟩
    · exact writeHeads_beside o q 1 u
    · exact raise_beside o q _ u
    · rfl
  · exact raise_beside o q _ s

theorem placeRecord_beside (reserved : Bool) (t : Stamp) (b : RecordBody) (s : State) :
    placeRecord reserved t b (beside o q s) = beside o q (placeRecord reserved t b s) := by
  have hfree : freePlaces (beside o q s) = freePlaces s := rfl
  have hjoin : joined reserved t b (beside o q s) = beside o q (joined reserved t b s) := rfl
  have hafter : freePlaces (beside o q (joined reserved t b s)) = freePlaces (joined reserved t b s) :=
    rfl
  rw [placeRecord_eq, placeRecord_eq, hjoin, hfree, hafter]
  split
  · exact raise_beside o q _ _
  · rfl

theorem placeGap_beside (reserved : Bool) (s : State) :
    placeGap reserved (beside o q s) = beside o q (placeGap reserved s) := by
  have hfree : freePlaces (beside o q s) = freePlaces s := rfl
  have hgap : (beside o q s).link.holdGap = s.link.holdGap := rfl
  have hlost : (beside o q s).link.lost = s.link.lost := rfl
  unfold placeGap
  rw [hfree, hgap, hlost]
  generalize (if reserved then 1 else 2) = n
  split
  · exact placeRecord_beside o q false s.clock.now (.holdGap s.link.holdGap s.link.lost)
      { s with link := { s.link with holdGap := 0, lost := 0 } }
  · rfl

theorem handOver_beside (reserved : Bool) (t : Stamp) (b : RecordBody) (s : State) :
    handOver reserved t b (beside o q s) = beside o q (handOver reserved t b s) := by
  have hfree : freePlaces (beside o q s) = freePlaces s := rfl
  have hregs : (beside o q s).regs = s.regs := rfl
  have hqueue : (beside o q s).link.queue = s.link.queue := rfl
  unfold handOver
  rw [hfree, hregs, hqueue]
  split
  · rfl
  split
  · rfl
  · dsimp only
    rw [placeGap_beside, placeRecord_beside]
    split
    · exact beginWrites_beside o q _
    · rfl

/-- What the journal reads and writes is the same in two states. -/
structure SameJournal (s t : State) : Prop where
  now : t.clock.now = s.clock.now
  capacity : t.table.capacity = s.table.capacity
  link : t.link = s.link
  regs : t.regs = s.regs
  ram : t.ram = s.ram
  answers : t.linkAnswers = s.linkAnswers

theorem SameJournal.refl (s : State) : SameJournal s s := ⟨rfl, rfl, rfl, rfl, rfl, rfl⟩

theorem SameJournal.trans {s t u : State} (h : SameJournal s t) (k : SameJournal t u) : SameJournal s u :=
  ⟨k.now.trans h.now, k.capacity.trans h.capacity, k.link.trans h.link, k.regs.trans h.regs,
    k.ram.trans h.ram, k.answers.trans h.answers⟩

theorem SameJournal.eq_beside {s t : State} (h : SameJournal s t) : t = beside t s.link.request s := by
  obtain ⟨hnow, hcapacity, hlink, hregs, hram, hanswers⟩ := h
  unfold beside
  rw [← hnow, ← hcapacity, ← hlink, ← hregs, ← hram, ← hanswers]

theorem beside_sameJournal (o s : State) : SameJournal s (beside o s.link.request s) :=
  ⟨rfl, rfl, rfl, rfl, rfl, rfl⟩

/-- What a hand-over makes of the journal does not rest on the rest of the state. -/
theorem handOver_sameJournal {s t : State} (h : SameJournal s t) (reserved : Bool) (at_ : Stamp)
    (b : RecordBody) : SameJournal (handOver reserved at_ b s) (handOver reserved at_ b t) := by
  have hself := handOver_beside s s.link.request reserved at_ b s
  have hother := handOver_beside t s.link.request reserved at_ b s
  rw [← h.eq_beside] at hother
  rw [← (SameJournal.refl s).eq_beside] at hself
  have hrequest : (handOver reserved at_ b s).link.request = s.link.request := by rw [hself]; rfl
  rw [hother, ← hrequest]
  exact beside_sameJournal t _

theorem raise_sameJournal {s t : State} (h : SameJournal s t) (e : Event) :
    SameJournal (raise e s) (raise e t) := by
  have hother := raise_beside t s.link.request e s
  have hrequest : (raise e s).link.request = s.link.request := by rw [raise_link]
  rw [← h.eq_beside] at hother
  rw [hother, ← hrequest]
  exact beside_sameJournal t _

/-! ### Hand-overs beside another request -/

section

variable (q : Option Request)

theorem raise_withRequest (e : Event) (s : State) :
    raise e (withRequest q s) = withRequest q (raise e s) :=
  (raise_beside s q e s).trans (beside_eq_withRequest (raise_linkOnly e s) q)

theorem handOver_withRequest (reserved : Bool) (t : Stamp) (b : RecordBody) (s : State) :
    handOver reserved t b (withRequest q s) = withRequest q (handOver reserved t b s) :=
  (handOver_beside s q reserved t b s).trans (beside_eq_withRequest (handOver_linkOnly reserved t b s) q)

theorem report_withRequest (b : RecordBody) (s : State) :
    report b (withRequest q s) = withRequest q (report b s) := handOver_withRequest q false _ b s

/-! ### The punch logic -/

theorem workerAt_withRequest (s : State) (slot : Nat) :
    workerAt (withRequest q s) slot = workerAt s slot := rfl

theorem autoClose_withRequest (slot : Nat) (cause : CloseCause) (s : State) :
    autoClose slot cause (withRequest q s) = withRequest q (autoClose slot cause s) := by
  unfold autoClose
  rw [workerAt_withRequest]
  split
  · rfl
  · split
    · rfl
    · exact report_withRequest q _ (setWorker slot _ s)

theorem modInterval_withRequest (slot : Nat) (f : OpenInterval → OpenInterval) (s : State) :
    modInterval slot f (withRequest q s) = withRequest q (modInterval slot f s) := by
  unfold modInterval
  rw [workerAt_withRequest]
  split
  · rfl
  · split <;> rfl

theorem actOnDeadline_withRequest (slot : Nat) (s : State) :
    actOnDeadline slot (withRequest q s) = withRequest q (actOnDeadline slot s) := by
  unfold actOnDeadline
  rw [modInterval_withRequest]
  generalize modInterval slot (fun i => { i with due := false }) s = u
  have hgates : (!gatesRun (withRequest q u) || grantNames (withRequest q u) slot) =
      (!gatesRun u || grantNames u slot) := rfl
  have hroom : hasRoom (withRequest q u) = hasRoom u := rfl
  dsimp only
  rw [hgates, hroom]
  split
  · rfl
  · split
    · exact autoClose_withRequest q slot _ u
    · exact modInterval_withRequest q slot _ u

theorem actOnDeadlines_withRequest : ∀ (slots : List Nat) (s : State),
    actOnDeadlines slots (withRequest q s) = withRequest q (actOnDeadlines slots s)
  | [], _ => rfl
  | k :: rest, s => by
    have ih := actOnDeadlines_withRequest rest (actOnDeadline k s)
    rw [← actOnDeadline_withRequest] at ih
    exact ih

theorem afterGrant_withRequest (slot : Nat) (s : State) :
    afterGrant slot (withRequest q s) = withRequest q (afterGrant slot s) := by
  have hgates : gatesRun (withRequest q s) = gatesRun s := rfl
  have hclock : (withRequest q s).clock = s.clock := rfl
  unfold afterGrant
  rw [workerAt_withRequest, hgates, hclock]
  split
  · rfl
  · split
    · rfl
    · split
      · exact actOnDeadline_withRequest q slot s
      · rfl

/-! ### Zones and doors -/

theorem modZone_withRequest (z : ZoneNo) (f : Zone → Zone) (s : State) :
    modZone z f (withRequest q s) = withRequest q (modZone z f s) := by
  unfold modZone
  split <;> rfl

theorem moveWorker_withRequest (slot : Nat) (z : ZoneNo) (s : State) :
    moveWorker slot z (withRequest q s) = withRequest q (moveWorker slot z s) := by
  unfold moveWorker
  rw [workerAt_withRequest]
  split
  · rfl
  · split
    · rfl
    · next w _ _ =>
      exact (congrArg (addOccupant z) (modZone_withRequest q w.location _
        (setWorker slot { w with location := z } s))).trans (modZone_withRequest q z _ _)

theorem applyPunch_withRequest (kind : PunchKind) (p : PassageInfo) (s : State) :
    applyPunch kind p (withRequest q s) =
      (withRequest q (applyPunch kind p s).1, (applyPunch kind p s).2) := by
  have hcal : (withRequest q s).cal = s.cal := rfl
  have hpay : (withRequest q s).pay = s.pay := rfl
  have hlimit : openLimit (withRequest q s) = openLimit s := rfl
  unfold applyPunch
  rw [workerAt_withRequest, hcal, hpay, hlimit]
  rcases workerAt s p.slot with _ | w
  · cases kind <;> rfl
  · cases kind with
    | punchIn =>
      dsimp only
      rcases clockIn s.cal s.pay (openLimit s) p.time.sec w with ⟨w1, i, newRun⟩
      rfl
    | punchOut =>
      dsimp only
      rcases w.interval with _ | i
      · rfl
      · dsimp only
        rcases closing s.cal s.pay w i (some p.time.sec) with ⟨w1, c⟩
        rfl
    | reentry | strayOut | passage => rfl

theorem passGrant_withRequest (d : DoorNo) (g : Grant) (s : State) :
    passGrant d g (withRequest q s) = withRequest q (passGrant d g s) := by
  have hinfo : passageInfo (withRequest q s) = passageInfo s := rfl
  have hclock : (withRequest q s).clock = s.clock := rfl
  have hdrop : ∀ u : State, dropReservation g.target (withRequest q u) =
      withRequest q (dropReservation g.target u) :=
    modZone_withRequest q g.target _
  unfold passGrant
  rw [hinfo, moveWorker_withRequest, hdrop, hclock]
  dsimp only
  rw [applyPunch_withRequest]
  dsimp only
  rw [handOver_withRequest, afterGrant_withRequest]

theorem lapseGrant_withRequest (d : DoorNo) (cause : LapseCause) (s : State) :
    lapseGrant d cause (withRequest q s) = withRequest q (lapseGrant d cause s) := by
  have hdoor : (withRequest q s).doors = s.doors := rfl
  have hclock : (withRequest q s).clock = s.clock := rfl
  have hmod : ∀ f, modDoor d f (withRequest q s) = withRequest q (modDoor d f s) := fun _ => rfl
  have hdrop : ∀ (z : ZoneNo) (u : State), dropReservation z (withRequest q u) =
      withRequest q (dropReservation z u) := fun z => modZone_withRequest q z _
  unfold lapseGrant
  rw [hdoor]
  split
  · rfl
  · dsimp only
    rw [workerAt_withRequest, hmod, hclock, hdrop, handOver_withRequest, afterGrant_withRequest]

theorem recompute_withRequest (d : DoorNo) (s : State) :
    recompute d (withRequest q s) = withRequest q (recompute d s) := by
  unfold recompute
  have hstate : recomputedState (withRequest q s) = recomputedState s := rfl
  have hdoor : (withRequest q s).doors = s.doors := rfl
  dsimp only
  rw [hstate, hdoor]
  split <;> rfl

end

end Sys2Proof.Machine
end

section
/-! SUPPORT. Bytes read back from the RAM, the slot that a returned request leaves, and the requests that
their block ends at the take (10.2). -/

namespace Sys2Proof.Machine

/-! ### Bytes written and read -/

theorem addrAt_ne {base : Word} {a b : Nat} (hne : a ≠ b) (ha : a < b + 4294967296)
    (hb : b < a + 4294967296) : addrAt base a ≠ addrAt base b := by
  unfold addrAt
  omega

theorem readCell_writeBytes_at (base : Word) : ∀ (b : List Byte) {m : Memory} (off i : Nat)
    (hi : i < b.length), m.wf = true → b.length ≤ 4294967296 →
    readCell (writeBytes m base off b) (addrAt base (off + i)) = b[i]
  | v :: rest, m, off, 0, _, hw, hlen => by
    rw [List.length_cons] at hlen
    have hcell := writeCell_wf hw (addrAt_lt base off) v
    rw [writeBytes, readCell_writeBytes_other base rest (off + 1) _ hcell fun i hi =>
      addrAt_ne (by omega) (by omega) (by omega)]
    exact readCell_writeCell_same _ v hw
  | v :: rest, m, off, i + 1, hi, hw, hlen => by
    rw [List.length_cons] at hi hlen
    have ih := readCell_writeBytes_at base rest (off + 1) i (by omega)
      (writeCell_wf hw (addrAt_lt base off) v) (by omega)
    rw [writeBytes, List.getElem_cons_succ, ← ih]
    congr 2
    omega

/-- The bytes written at a place are read back from it. -/
theorem readBytes_writeBytes_same (base : Word) (off : Nat) (b : List Byte) {m : Memory}
    (hw : m.wf = true) (hlen : b.length ≤ 4294967296) :
    readBytes (writeBytes m base off b) base off b.length = b := by
  refine List.ext_getElem (by simp [readBytes]) fun i _ hi => ?_
  simp only [readBytes, List.getElem_map, List.getElem_range]
  exact readCell_writeBytes_at base b off i hi hw hlen

/-- Bytes written elsewhere leave a place as it was. -/
theorem readBytes_writeBytes_other {base : Word} {off place n : Nat} {b : List Byte} {m : Memory}
    (hw : m.wf = true) (hapart : place + n ≤ off ∨ off + b.length ≤ place)
    (hnear : off + b.length < place + 4294967296) (hnear' : place + n < off + 4294967296) :
    readBytes (writeBytes m base off b) base place n = readBytes m base place n := by
  refine List.map_congr_left fun i hi => ?_
  rw [List.mem_range] at hi
  exact readCell_writeBytes_other base b off _ hw fun j hj =>
    addrAt_ne (by omega) (by omega) (by omega)

theorem readBytes_take {m : Memory} {base : Word} {off n : Nat} {a b : List Byte}
    (h : readBytes m base off n = a ++ b) : readBytes m base off a.length = a := by
  have hn : n = a.length + b.length := by
    have := congrArg List.length h
    simpa [readBytes] using this
  calc readBytes m base off a.length
      = (readBytes m base off n).take a.length := by
        rw [readBytes, readBytes, ← List.map_take, List.take_range, min_eq_left (by omega)]
    _ = a := by rw [h, List.take_left]

/-! ### The returned slot -/

theorem returnedRam_reads {su : Setup} {m : Memory} (hw : m.wf = true) (pos : Nat) (st : Status)
    (count resume : Nat) :
    readBytes (returnedRam su pos st count resume m) su.workList (64 * pos + 3) 1 = [byteOf st.code] ∧
    readBytes (returnedRam su pos st count resume m) su.workList (64 * pos + 8) 2 = le16 count ∧
    readBytes (returnedRam su pos st count resume m) su.workList (64 * pos) 1 = [0xA5] := by
  have h1 := writeBytes_wf (base := su.workList) (b := [byteOf st.code]) (64 * pos + 3) hw
  have h2 := writeBytes_wf (base := su.workList) (b := le16 count ++ le16 resume) (64 * pos + 8) h1
  have hlen : (le16 count ++ le16 resume).length = 4 := rfl
  unfold returnedRam
  refine ⟨?_, ?_, readBytes_writeBytes_same _ _ [0xA5] h2 (by simp)⟩
  · rw [readBytes_writeBytes_other h2 (.inr (by simp)) (by simp only [List.length_singleton]; omega) (by omega),
      readBytes_writeBytes_other h1 (.inl (by omega)) (by rw [hlen]; omega) (by omega)]
    exact readBytes_writeBytes_same _ _ [byteOf st.code] hw (by simp)
  · rw [readBytes_writeBytes_other h2 (.inr (by simp)) (by simp only [List.length_singleton]; omega) (by omega)]
    have h := readBytes_writeBytes_same su.workList (64 * pos + 8) (le16 count ++ le16 resume) h1
      (by rw [hlen]; omega)
    exact readBytes_take h

theorem answered_link_ram (su : Setup) (n : Bool) (st : Status) (count resume : Option Nat) (s : State) :
    (answered su n st count resume s).ram = returnedRam su s.link.workPos st
      (statedOr count s.link.draws 0) (statedOr resume s.link.draws 1) s.ram ∧
    (answered su n st count resume s).link = { s.link with
      request := none
      ret := none
      workPos := nextWorkPos su s.link.workPos
      draws := s.link.draws + 1 } := by
  unfold answered
  dsimp only
  split
  · exact ⟨raise_ram _ _, raise_link _ _⟩
  · exact ⟨rfl, rfl⟩

/-- The slot that an answered request has returned. -/
theorem answered_slotReturned {su : Setup} {s t : State} (hw : RamCanonical t)
    (hpos : t.link.workPos = s.link.workPos) (n : Bool) (st : Status) (count : Nat)
    (resume : Option Nat) :
    SlotReturned su s (answered su n st (some count) resume t) st count := by
  obtain ⟨hram, hlink⟩ := answered_link_ram su n st (some count) resume t
  obtain ⟨hstatus, hcount, howner⟩ := returnedRam_reads hw (su := su) t.link.workPos st count
    (statedOr resume t.link.draws 1)
  unfold SlotReturned
  rw [hram, hlink, ← hpos]
  exact ⟨hstatus, hcount, howner, rfl, rfl, rfl⟩

/-! ### The place of a request in the work list -/

/-- `t` stands at the same place in the work list as `s`, with the same request in progress, and no more
error responses to come than `s`. -/
structure ServeStep (s t : State) : Prop where
  run : t.regs.run = s.regs.run
  request : t.link.request = s.link.request
  ret : t.link.ret = s.link.ret
  muster : t.link.muster = s.link.muster
  setup : t.link.setup = s.link.setup
  workPos : t.link.workPos = s.link.workPos
  answers : t.linkAnswers = s.linkAnswers

theorem ServeStep.refl (s : State) : ServeStep s s := ⟨rfl, rfl, rfl, rfl, rfl, rfl, rfl⟩

theorem ServeStep.trans {s t u : State} (h : ServeStep s t) (k : ServeStep t u) : ServeStep s u :=
  ⟨k.run.trans h.run, k.request.trans h.request, k.ret.trans h.ret, k.muster.trans h.muster,
    k.setup.trans h.setup, k.workPos.trans h.workPos, k.answers.trans h.answers⟩

theorem ReadyFor.serve {s t : State} {su : Setup} (h : ReadyFor s su) (k : ServeStep s t) :
    ReadyFor t su :=
  ⟨k.run.trans h.running, k.request.trans h.request, k.ret.trans h.ret, k.muster.trans h.muster,
    k.answers.trans h.answers, k.setup.trans h.setup⟩

theorem WriteStep.serve {s t : State} (h : WriteStep s t) : ServeStep s t := by
  obtain ⟨_, _, _, rfl⟩ := h
  exact ⟨rfl, rfl, rfl, rfl, rfl, rfl, rfl⟩

theorem serveStep_of_eq {s t : State} (hregs : t.regs = s.regs) (hlink : t.link = s.link)
    (hanswers : t.linkAnswers = s.linkAnswers) : ServeStep s t :=
  ⟨by rw [hregs], by rw [hlink], by rw [hlink], by rw [hlink], by rw [hlink], by rw [hlink], hanswers⟩

theorem handOver_serve {s : State} (h : s.linkAnswers = []) (reserved : Bool) (t : Stamp)
    (b : RecordBody) : ServeStep s (handOver reserved t b s) := (handOver_writeStep h reserved t b).serve

theorem report_serve {s : State} (h : s.linkAnswers = []) (b : RecordBody) : ServeStep s (report b s) :=
  handOver_serve h false _ b

theorem raise_serve (e : Event) (s : State) : ServeStep s (raise e s) := (raise_holdStep e s).writeStep.serve

theorem modInterval_serve (slot : Nat) (f : OpenInterval → OpenInterval) (s : State) :
    ServeStep s (modInterval slot f s) := by
  unfold modInterval
  split
  · exact .refl s
  · split
    · exact .refl s
    · exact serveStep_of_eq rfl rfl rfl

theorem autoClose_serve {s : State} (h : s.linkAnswers = []) (slot : Nat) (cause : CloseCause) :
    ServeStep s (autoClose slot cause s) := by
  unfold autoClose
  split
  · exact .refl s
  · split
    · exact .refl s
    · next w _ _ i _ =>
      have hset : ServeStep s (setWorker slot (closing s.cal s.pay w i none).1 s) :=
        serveStep_of_eq rfl rfl rfl
      exact hset.trans (report_serve (hset.answers.trans h) _)

theorem actOnDeadline_serve {s : State} (h : s.linkAnswers = []) (slot : Nat) :
    ServeStep s (actOnDeadline slot s) := by
  have hmod := modInterval_serve slot (fun i => { i with due := false }) s
  unfold actOnDeadline
  dsimp only
  split
  · exact hmod
  · split
    · exact hmod.trans (autoClose_serve (hmod.answers.trans h) slot .deadline)
    · exact hmod.trans (modInterval_serve _ _ _)

theorem actOnDeadlines_serve : ∀ (slots : List Nat) {s : State}, s.linkAnswers = [] →
    ServeStep s (actOnDeadlines slots s)
  | [], s, _ => .refl s
  | k :: rest, _, h =>
    have hk := actOnDeadline_serve h k
    hk.trans (actOnDeadlines_serve rest (hk.answers.trans h))

theorem afterGrant_serve {s : State} (h : s.linkAnswers = []) (slot : Nat) :
    ServeStep s (afterGrant slot s) := by
  unfold afterGrant
  split
  · exact .refl s
  · split
    · exact .refl s
    · split
      · exact actOnDeadline_serve h slot
      · exact .refl s

theorem lapseGrant_serve {s : State} (h : s.linkAnswers = []) (d : DoorNo) (cause : LapseCause) :
    ServeStep s (lapseGrant d cause s) := by
  unfold lapseGrant
  split
  · exact .refl s
  · next g _ =>
    have hdrop : ServeStep s (dropReservation g.target (modDoor d (fun e => { e with grant := none }) s)) :=
      serveStep_of_eq (by simp [dropReservation]) (by simp [dropReservation]) (by simp [dropReservation])
    have hover := hdrop.trans (handOver_serve (hdrop.answers.trans h) true s.clock.now
      (.lapsed g.slot ((workerAt s g.slot).elim 0 (·.badge)) d g.line g.inward g.kind cause g.time))
    exact hover.trans (afterGrant_serve (hover.answers.trans h) g.slot)

/-! ### Requests that end at the take -/

/-- A request whose block acts as on the state with none in progress and then ends it. -/
theorem carryOut_acts {s u : State} {su : Setup} {r : Req} {notify : Bool} {f : State → State}
    {st : Status} {count resume : Option Nat} (hs : ReadyFor s su) (hu : ServeStep s u)
    (hf : ∀ q : Option Request, f (withRequest q s) = endRequest st count resume (withRequest q u)) :
    carryOut r notify f s = answered su notify st count resume u :=
  carryOut_ends hs (hs.serve hu) (hf (some ⟨r, notify, .taken, 0, 0⟩))

end Sys2Proof.Machine
end

section
/-! CERTIFICATE. A step of plant time, SET_TIME, and the sync mark (1.3, 1.4, 1.6, 8.4). -/

namespace Sys2Proof.Machine

/-! ### The plan entries in an interval -/

theorem mem_passedEntries {plan : List BellEntry} {h new : Nat} {x : Nat × Nat × BellEntry} :
    x ∈ passedEntries plan h new ↔ (∃ k < dayOf new + 1 - dayOf h, x.1 = dayOf h + k) ∧
      plan[x.2.1]? = some x.2.2 ∧ h < instantOf x.1 x.2.2 ∧ instantOf x.1 x.2.2 ≤ new := by
  obtain ⟨day, k, e⟩ := x
  simp only [passedEntries, List.mem_flatMap, List.mem_range, List.mem_map, List.mem_filter,
    Bool.and_eq_true, decide_eq_true_eq, Prod.mk.injEq, List.mem_zipIdx_iff_getElem?]
  constructor
  · rintro ⟨n, hn, ⟨e', k'⟩, ⟨hmem, hlow, hhigh⟩, rfl, rfl, rfl⟩
    exact ⟨⟨n, hn, rfl⟩, hmem, hlow, hhigh⟩
  · rintro ⟨⟨n, hn, rfl⟩, hmem, hlow, hhigh⟩
    exact ⟨n, hn, (e, k), ⟨hmem, hlow, hhigh⟩, rfl, rfl, rfl⟩

/-- The entries of an interval come by instant, and then in table order. -/
theorem passedEntries_sorted {plan : List BellEntry} (hsec : ∀ e ∈ plan, e.sec < 86400)
    (hplan : plan.Pairwise (fun a b => a.sec ≤ b.sec)) (h new : Nat) :
    (passedEntries plan h new).Pairwise fun x y =>
      x.1 * 86400 + x.2.2.sec < y.1 * 86400 + y.2.2.sec ∨
      (x.1 * 86400 + x.2.2.sec = y.1 * 86400 + y.2.2.sec ∧ x.2.1 < y.2.1) := by
  unfold passedEntries
  rw [List.pairwise_flatMap]
  refine ⟨fun n _ => ?_, ?_⟩
  · rw [List.pairwise_map]
    refine List.Pairwise.filter _ ?_
    rw [List.pairwise_iff_getElem]
    intro i j hi hj hij
    have hle := List.pairwise_iff_getElem.1 hplan i j (by simpa using hi) (by simpa using hj) hij
    simp only [List.getElem_zipIdx]
    omega
  · refine List.Pairwise.imp ?_ (List.pairwise_lt_range)
    intro m n hmn x hx y hy
    simp only [List.mem_map, List.mem_filter, List.mem_zipIdx_iff_getElem?] at hx hy
    obtain ⟨⟨e, i⟩, ⟨he, -⟩, rfl⟩ := hx
    obtain ⟨⟨e', j⟩, ⟨he', -⟩, rfl⟩ := hy
    have h1 := hsec e (List.mem_of_getElem? he)
    have h2 := hsec e' (List.mem_of_getElem? he')
    left
    dsimp only
    omega

theorem passedEntries_spec (plan : List BellEntry) (h new : Nat) (hsec : ∀ e ∈ plan, e.sec < 86400)
    (hplan : plan.Pairwise (fun a b => a.sec ≤ b.sec)) :
    let l := passedEntries plan h new
    (∀ x ∈ l, plan[x.2.1]? = some x.2.2 ∧ h < x.1 * 86400 + x.2.2.sec ∧
      x.1 * 86400 + x.2.2.sec ≤ new) ∧
    (∀ (day k : Nat) (e : BellEntry), plan[k]? = some e → h < day * 86400 + e.sec →
      day * 86400 + e.sec ≤ new → (day, k, e) ∈ l) ∧
    l.Pairwise fun x y => x.1 * 86400 + x.2.2.sec < y.1 * 86400 + y.2.2.sec ∨
      (x.1 * 86400 + x.2.2.sec = y.1 * 86400 + y.2.2.sec ∧ x.2.1 < y.2.1) := by
  refine ⟨fun x hx => ?_, fun day k e he hlow hhigh => ?_, passedEntries_sorted hsec hplan h new⟩
  · obtain ⟨-, hmem, hlow, hhigh⟩ := mem_passedEntries.1 hx
    exact ⟨hmem, hlow, hhigh⟩
  · have hs := hsec e (List.mem_of_getElem? he)
    refine mem_passedEntries.2 ⟨⟨day - h / 86400, ?_, ?_⟩, he, hlow, hhigh⟩
    · simp only [dayOf, Config.daySeconds]
      omega
    · simp only [dayOf, Config.daySeconds]
      omega

/-! ### The bell notice -/

/-- The circuits after the entries listed have sounded in turn. -/
def rungCircuits (heard : List (Nat × Nat × BellEntry)) (s : State) : Vector Circuit 8 :=
  ((heard.map fun x => x.2.2).foldl (fun s e => soundEntry e s) s).bells.circuits

theorem rungCircuits_circuit (heard : List (Nat × Nat × BellEntry)) (s : State) (k : CircuitNo) :
    (rungCircuits heard s)[k] =
      if s.bells.circuits[k].isEvac = true then s.bells.circuits[k]
      else (heard.filter fun x => x.2.2.circuits.getLsbD k.val).getLast?.elim s.bells.circuits[k]
        fun x => x.2.2.sounding := by
  have h := foldl_soundEntry_circuit k (heard.map fun x => x.2.2) s
  rw [rungCircuits, h, List.filter_map, List.getLast?_map]
  split
  · rfl
  · simp only [Function.comp_def]
    cases (heard.filter fun x => x.2.2.circuits.getLsbD k.val).getLast? <;> rfl

/-- The entries of the interval that would sound. -/
def namedEntries (h new : Nat) (s : State) : List (Nat × Nat × BellEntry) :=
  (passedEntries s.bells.plan h new).filter fun x => bellsSound s && entryOnDay s.cal x.1 x.2.2

/-- An entry is more than 60 s late. -/
def isLate (new : Stamp) (x : Nat × Nat × BellEntry) : Bool :=
  decide (960 < beatsOf new - instantOf x.1 x.2.2 * 16)

/-- The state after the bell notice's soundings, H moved. -/
def rung (new : Stamp) (s : State) : State :=
  { s with bells := { s.bells with
    passed := max s.bells.passed new.sec
    circuits := rungCircuits ((namedEntries s.bells.passed new.sec s).filter fun x => !isLate new x) s } }

/-- The bell notice with its record of the skipped entries. -/
def bellNotice (old new : Stamp) (s : State) : State :=
  let skipped := (namedEntries s.bells.passed new.sec s).filter (isLate new)
  skipped.head?.elim (rung new s) fun x => skipped.getLast?.elim (rung new s) fun y =>
    report (.bellSkipped old.sec (min 65535 skipped.length) x.1 x.2.1 y.1 y.2.1) (rung new s)

theorem passedEntries_empty {plan : List BellEntry} {h new : Nat} (hle : new ≤ h) :
    passedEntries plan h new = [] := by
  refine List.eq_nil_iff_forall_not_mem.2 fun x hx => ?_
  obtain ⟨-, -, hlow, hhigh⟩ := mem_passedEntries.1 hx
  omega

theorem stepBells_eq (old new : Stamp) (s : State) : stepBells old new s = bellNotice old new s := by
  by_cases hle : new.sec ≤ s.bells.passed
  · have hnone : namedEntries s.bells.passed new.sec s = [] := by
      rw [namedEntries, passedEntries_empty hle, List.filter_nil]
    have hself : rung new s = s := by
      rw [rung, hnone, max_eq_left hle]
      rfl
    rw [stepBells, if_pos hle]
    simp only [bellNotice, hnone, hself, List.filter_nil, List.head?_nil, Option.elim_none]
  · have hskip : (passedEntries s.bells.plan s.bells.passed new.sec).filter
        (fun e => stepSkips s new e.1 e.2.2) =
        (namedEntries s.bells.passed new.sec s).filter (isLate new) := by
      rw [namedEntries, List.filter_filter]
      refine List.filter_congr fun x _ => ?_
      rw [stepSkips, isLate, Bool.and_comm]
    have hheard : ((passedEntries s.bells.plan s.bells.passed new.sec).filter
        (fun e => !stepSkips s new e.1 e.2.2)).filter
          (fun x => bellsSound s && entryOnDay s.cal x.1 x.2.2) =
        (namedEntries s.bells.passed new.sec s).filter fun x => !isLate new x := by
      rw [namedEntries, List.filter_filter, List.filter_filter]
      refine List.filter_congr fun x _ => ?_
      rw [stepSkips, isLate]
      cases (bellsSound s && entryOnDay s.cal x.1 x.2.2) <;> simp
    rw [stepBells, if_neg hle]
    dsimp only
    rw [hskip, foldl_reachEntry_eq, hheard, foldl_soundEntry_eq]
    have hrung : rung new s = { s with bells := { s.bells with
        passed := new.sec
        circuits := rungCircuits
          ((namedEntries s.bells.passed new.sec s).filter fun x => !isLate new x) s } } := by
      rw [rung, max_eq_right (by omega)]
    unfold bellNotice
    rw [hrung]
    dsimp only
    cases ((namedEntries s.bells.passed new.sec s).filter (isLate new)).head? <;>
      cases ((namedEntries s.bells.passed new.sec s).filter (isLate new)).getLast? <;> rfl

/-! ### A step of plant time -/

/-- The step's own act on the clock and the exception list (R11, R20). -/
def timeSet (new : Stamp) (s : State) : State :=
  { s with
    clock := { s.clock with now := new, slew := none }
    cal := { s.cal with exceptions := if s.clock.now.sec / 86400 < new.sec / 86400 then
      s.cal.exceptions.filter fun e => new.sec / 86400 ≤ e.1 + 7 else s.cal.exceptions } }

/-- The step with its record and its event. -/
def stepTold (new : Stamp) (cause : StepCause) (s : State) : State :=
  raise .clockStep (report (.clockStep (some s.clock.now) cause) (timeSet new s))

/-- A deadline in the interval of a step, whose closing does not wait. -/
def deadlinePassed (old new : Stamp) (i : OpenInterval) : Bool :=
  !i.waiting && decide (beatsOf old < i.deadline * 16) && decide (i.deadline * 16 ≤ beatsOf new)

theorem stepTold_linkOnly (new : Stamp) (cause : StepCause) (s : State) :
    LinkOnly (timeSet new s) (stepTold new cause s) :=
  (report_linkOnly _ _).trans (raise_linkOnly _ _)

theorem stepTold_gatesRun (new : Stamp) (cause : StepCause) (s : State) :
    gatesRun (stepTold new cause s) = gatesRun s := (stepTold_linkOnly new cause s).gatesRun

theorem rung_stepFrame (new : Stamp) (s : State) : StepFrame s (rung new s) := stepFrame_of_bells s _

theorem bellNotice_linkOnly (old new : Stamp) (s : State) :
    LinkOnly (rung new s) (bellNotice old new s) := by
  unfold bellNotice
  dsimp only
  rcases List.head? _ with _ | x
  · exact .refl _
  rcases List.getLast? _ with _ | y
  · exact .refl _
  · exact report_linkOnly _ _

theorem bellNotice_stepFrame (old new : Stamp) (s : State) :
    StepFrame (rung new s) (bellNotice old new s) := by
  unfold bellNotice
  dsimp only
  rcases List.head? _ with _ | x
  · exact .refl _
  rcases List.getLast? _ with _ | y
  · exact .refl _
  · exact report_stepFrame _ _

theorem slotsByDeadline_congr {s t : State} (p : OpenInterval → Bool) (h : t.table = s.table) :
    slotsByDeadline p t = slotsByDeadline p s := by
  unfold slotsByDeadline
  rw [h]

theorem stepTo_noticed (target : Stamp) (cause : StepCause) (s : State) :
    stepTo target cause s = stepDeadlines s.clock.now (clampTime target)
      (bellNotice s.clock.now (clampTime target) (stepTold (clampTime target) cause s)) := by
  generalize hnew : clampTime target = new
  have hset : (if dayOf s.clock.now.sec < dayOf new.sec then
      midnight (dayOf new.sec) { s with clock := { s.clock with now := new, slew := none } }
      else { s with clock := { s.clock with now := new, slew := none } }) = timeSet new s := by
    unfold timeSet
    by_cases h : s.clock.now.sec / 86400 < new.sec / 86400
    · rw [if_pos h]
      exact if_pos h
    · rw [if_neg h]
      exact if_neg h
  rw [← stepBells_eq, stepTold, ← hset, ← hnew]
  rfl

theorem stepTo_eq (target : Stamp) (cause : StepCause) (s : State) :
    stepTo target cause s =
      let noticed := bellNotice s.clock.now (clampTime target) (stepTold (clampTime target) cause s)
      if gatesRun s = true then
        deadlinesActed (slotsByDeadline (deadlinePassed s.clock.now (clampTime target)) s) noticed
      else noticed := by
  have hnoticed := stepTo_noticed target cause s
  generalize clampTime target = new at hnoticed ⊢
  have hnotice := bellNotice_linkOnly s.clock.now new (stepTold new cause s)
  have hgates : gatesRun (bellNotice s.clock.now new (stepTold new cause s)) = gatesRun s :=
    hnotice.gatesRun.trans (stepTold_gatesRun new cause s)
  have htable : (bellNotice s.clock.now new (stepTold new cause s)).table = s.table :=
    hnotice.table.trans (stepTold_linkOnly new cause s).table
  dsimp only
  rw [hnoticed, stepDeadlines, hgates]
  by_cases hg : gatesRun s = true
  · rw [if_pos hg, if_pos hg, ← actOnDeadlines_eq _ (hgates.trans hg), slotsByDeadline_congr _ htable]
    rfl
  · rw [if_neg hg, if_neg hg]

/-- What a step leaves besides the clock, the exception list, the bells, the journal and the workers. -/
theorem stepTo_stepFrame (target : Stamp) (cause : StepCause) (s : State) :
    StepFrame (stepTold (clampTime target) cause s) (stepTo target cause s) ∧
    (stepTo target cause s).bells = (rung (clampTime target) (stepTold (clampTime target) cause s)).bells := by
  have hrung := rung_stepFrame (clampTime target) (stepTold (clampTime target) cause s)
  have hnotice := bellNotice_stepFrame s.clock.now (clampTime target)
    (stepTold (clampTime target) cause s)
  have hbells := (bellNotice_linkOnly s.clock.now (clampTime target)
    (stepTold (clampTime target) cause s)).bells
  rw [stepTo_eq]
  dsimp only
  split
  · next hg =>
    have hgates : gatesRun (bellNotice s.clock.now (clampTime target)
        (stepTold (clampTime target) cause s)) = true :=
      ((hrung.trans hnotice).gates.trans (stepTold_gatesRun _ cause s)).trans hg
    rw [← actOnDeadlines_eq _ hgates]
    have hacted := actOnDeadlines_punchStep
      (slotsByDeadline (deadlinePassed s.clock.now (clampTime target)) s)
      (bellNotice s.clock.now (clampTime target) (stepTold (clampTime target) cause s))
    exact ⟨(hrung.trans hnotice).trans hacted.toStepFrame, hacted.bells.trans hbells⟩
  · exact ⟨hrung.trans hnotice, hbells⟩

theorem namedEntries_stepTold (new : Stamp) (cause : StepCause) (s : State) :
    namedEntries s.bells.passed new.sec (stepTold new cause s) =
      (passedEntries s.bells.plan s.bells.passed new.sec).filter fun x =>
        gatesRun s && !s.mode.bellsOff && !s.mode.rehearsal &&
          x.2.2.days.getLsbD (dayType (timeSet new s).cal x.1) := by
  have htold := stepTold_linkOnly new cause s
  unfold namedEntries bellsSound entryOnDay
  rw [htold.bells, htold.gatesRun, htold.mode, htold.cal]
  rfl

/-- A step from any cause, in the words of the statement. -/
theorem stepTo_spec (target : Stamp) (cause : StepCause) (s : State) :
    let new := clampTime target
    let told := stepTold new cause s
    let named := (passedEntries s.bells.plan s.bells.passed new.sec).filter fun x =>
      gatesRun s && !s.mode.bellsOff && !s.mode.rehearsal &&
        x.2.2.days.getLsbD (dayType (timeSet new s).cal x.1)
    let skipped := named.filter (isLate new)
    let heard := named.filter fun x => !isLate new x
    let reached := slotsByDeadline (deadlinePassed s.clock.now new) s
    ∃ circuits : Vector Circuit 8,
      let rung := { told with bells := { s.bells with
        passed := max s.bells.passed new.sec
        circuits := circuits } }
      let noticed := skipped.head?.elim rung fun x => skipped.getLast?.elim rung fun y =>
        report (.bellSkipped s.clock.now.sec (min 65535 skipped.length) x.1 x.2.1 y.1 y.2.1) rung
      stepTo target cause s =
        (if gatesRun s = true then deadlinesActed reached noticed else noticed) ∧
      ∀ k : CircuitNo, circuits[k] =
        if s.bells.circuits[k].isEvac = true then s.bells.circuits[k]
        else (heard.filter fun x => x.2.2.circuits.getLsbD k.val).getLast?.elim s.bells.circuits[k]
          fun x => x.2.2.sounding := by
  have hbells : ∀ new, (stepTold new cause s).bells = s.bells := fun new =>
    (stepTold_linkOnly new cause s).bells
  refine ⟨_, ?_, fun k => (rungCircuits_circuit _ (stepTold (clampTime target) cause s) k).trans
    (by rw [hbells])⟩
  rw [stepTo_eq]
  unfold bellNotice rung
  rw [hbells, namedEntries_stepTold]

/-! ### SET_TIME -/

theorem exec_setTime (notify : Bool) (sec : Nat) (s : State) :
    exec (.setTime notify sec) s =
      .next (carryOut (.setTime sec) notify (takeSetTime sec) s) := rfl

theorem rung_withRequest (q : Option Request) (new : Stamp) (s : State) :
    rung new (withRequest q s) = withRequest q (rung new s) := by
  have hsame : ∀ l : List (Nat × Nat × BellEntry),
      rungCircuits l (withRequest q s) = rungCircuits l s := fun l => by
    refine Vector.ext fun k hk => ?_
    exact (rungCircuits_circuit l (withRequest q s) ⟨k, hk⟩).trans
      (rungCircuits_circuit l s ⟨k, hk⟩).symm
  unfold rung
  rw [hsame]
  rfl

theorem stepTo_withRequest (q : Option Request) (target : Stamp) (cause : StepCause) (s : State) :
    stepTo target cause (withRequest q s) = withRequest q (stepTo target cause s) := by
  have htold : ∀ new, stepTold new cause (withRequest q s) = withRequest q (stepTold new cause s) :=
    fun new => by
      unfold stepTold
      rw [← raise_withRequest, ← report_withRequest]
      rfl
  have hnotice : ∀ (old new : Stamp) (u : State),
      bellNotice old new (withRequest q u) = withRequest q (bellNotice old new u) := fun old new u => by
    have hnamed : namedEntries (withRequest q u).bells.passed new.sec (withRequest q u) =
      namedEntries u.bells.passed new.sec u := rfl
    unfold bellNotice
    rw [hnamed, rung_withRequest]
    dsimp only
    rcases List.head? _ with _ | x
    · rfl
    rcases List.getLast? _ with _ | y
    · rfl
    · exact report_withRequest q _ _
  have hdeadlines : ∀ (old new : Stamp) (u : State),
      stepDeadlines old new (withRequest q u) = withRequest q (stepDeadlines old new u) :=
    fun old new u => by
      have hgates : gatesRun (withRequest q u) = gatesRun u := rfl
      unfold stepDeadlines
      rw [hgates, slotsByDeadline_congr (s := u) (t := withRequest q u) _ rfl]
      split
      · exact actOnDeadlines_withRequest q _ u
      · rfl
  have hclock : (withRequest q s).clock = s.clock := rfl
  rw [stepTo_noticed, stepTo_noticed, hclock, htold, hnotice, hdeadlines]

theorem stepTo_serve {s : State} (h : s.linkAnswers = []) (target : Stamp) (cause : StepCause) :
    ServeStep s (stepTo target cause s) := by
  rw [stepTo_noticed]
  generalize clampTime target = new
  have hset : ServeStep s (timeSet new s) := serveStep_of_eq rfl rfl rfl
  have htold : ServeStep s (stepTold new cause s) :=
    (hset.trans (report_serve (hset.answers.trans h) _)).trans (raise_serve _ _)
  have hrung : ServeStep s (rung new (stepTold new cause s)) :=
    htold.trans (serveStep_of_eq rfl rfl rfl)
  have hnotice : ServeStep s (bellNotice s.clock.now new (stepTold new cause s)) := by
    unfold bellNotice
    dsimp only
    rcases List.head? _ with _ | x
    · exact hrung
    rcases List.getLast? _ with _ | y
    · exact hrung
    · exact hrung.trans (report_serve (hrung.answers.trans h) _)
  unfold stepDeadlines
  split
  · exact hnotice.trans (actOnDeadlines_serve _ (hnotice.answers.trans h))
  · exact hnotice

theorem setTime_answered {s : State} {su : Setup} (h : ReadyFor s su) (notify : Bool) {sec : Nat}
    (hsec : sec ≤ Config.lastSecond) (hsync : s.clock.sync ≠ .locked) :
    exec (.setTime notify sec) s =
      .next (answered su notify .done none none (stepTo ⟨sec, 0⟩ .setTime s)) := by
  rw [exec_setTime, carryOut_acts h (stepTo_serve h.answers ⟨sec, 0⟩ .setTime) fun q => ?_]
  have hclock : (withRequest q s).clock = s.clock := rfl
  rw [takeSetTime, if_neg (by omega), hclock, if_neg hsync, stepTo_withRequest]

/-- What a SET_TIME leaves, and the slot it returns. -/
theorem setTime_frame {s : State} {su : Setup} (h : ReadyFor s su) (notify : Bool) {sec : Nat}
    (hsec : sec ≤ Config.lastSecond) (hsync : s.clock.sync ≠ .locked) (hram : RamCanonical s) :
    ∃ t : State, exec (.setTime notify sec) s = .next t ∧
        t.clock = { s.clock with now := ⟨sec, 0⟩, slew := none } ∧
        t.cal = { s.cal with exceptions :=
          if s.clock.now.sec / 86400 < sec / 86400 then
            s.cal.exceptions.filter fun e => sec / 86400 ≤ e.1 + 7
          else s.cal.exceptions } ∧
        t.bells.passed = max s.bells.passed sec ∧ t.bells.plan = s.bells.plan ∧
        flagSet .clockStep t = true ∧ t.link.request = none ∧ t.link.ret = none ∧
        t.link.workPos = nextWorkPos su s.link.workPos ∧
        readCell t.ram (addrAt su.workList (64 * s.link.workPos)) = 0xA5 ∧
        readCell t.ram (addrAt su.workList (64 * s.link.workPos + 3)) = 0x00 ∧
        t.mode = s.mode ∧ t.lines = s.lines ∧ t.zones = s.zones ∧ t.doors = s.doors ∧
        t.pay = s.pay ∧ t.fire = s.fire ∧ t.table.index = s.table.index := by
  have hclamp : clampTime ⟨sec, 0⟩ = ⟨sec, 0⟩ := if_neg (by simpa using hsec)
  obtain ⟨hframe, hbells⟩ := stepTo_stepFrame ⟨sec, 0⟩ .setTime s
  have hserve := stepTo_serve h.answers ⟨sec, 0⟩ .setTime
  have hcanon : RamCanonical (stepTo ⟨sec, 0⟩ .setTime s) :=
    (stepTo_workStep (target := ⟨sec, 0⟩) .setTime s (Nat.zero_lt_succ 15)).keeps.ram hram
  rw [hclamp] at hframe hbells
  have htold := stepTold_linkOnly ⟨sec, 0⟩ .setTime s
  have hflag : flagSet .clockStep (stepTold ⟨sec, 0⟩ .setTime s) = true := by
    have hrun := (report_serve (s := timeSet ⟨sec, 0⟩ s) h.answers
      (.clockStep (some s.clock.now) .setTime)).run
    refine flagSet_raise_same ?_ .clockStep
    rw [hrun]
    exact fun hc => absurd (h.running.symm.trans hc) (by decide)
  refine ⟨_, setTime_answered h notify hsec hsync, ?_⟩
  generalize stepTo ⟨sec, 0⟩ .setTime s = u at hframe hbells hserve hcanon ⊢
  obtain ⟨hclock, hmode, hcal, htable, hlines, hzones, hdoors, hpay, hbells', hfire, -⟩ :=
    answered_frame su notify .done none none u
  obtain ⟨hansram, hanslink⟩ := answered_link_ram su notify .done none none u
  obtain ⟨hstatus, -, howner⟩ := returnedRam_reads hcanon (su := su) u.link.workPos .done
    (statedOr none u.link.draws 0) (statedOr none u.link.draws 1)
  have hflags : flagSet .clockStep (answered su notify .done none none u) = true := by
    have hu := hframe.flags _ hflag
    unfold answered
    dsimp only
    split
    · exact flagSet_raise_of_flagSet _ hu
    · exact hu
  rw [hserve.workPos] at hansram hstatus howner
  refine ⟨?_, ?_, ?_, ?_, hflags, ?_, ?_, ?_, ?_, ?_, ?_, ?_, ?_, ?_, ?_, ?_, ?_⟩
  · rw [hclock, hframe.clock, htold.clock]
    rfl
  · rw [hcal, hframe.cal, htold.cal]
    rfl
  · rw [hbells', hbells]
    exact congrArg (max · sec) (congrArg Bells.passed htold.bells)
  · rw [hbells', hbells]
    exact (congrArg Bells.plan htold.bells :)
  · rw [hanslink]
  · rw [hanslink]
  · rw [hanslink, hserve.workPos]
  · rw [hansram]
    exact List.singleton_inj.1 howner
  · rw [hansram]
    exact List.singleton_inj.1 hstatus
  · rw [hmode, hframe.mode, htold.mode]
    rfl
  · rw [hlines, hframe.lines, htold.lines]
    rfl
  · rw [hzones, hframe.zones, htold.zones]
    rfl
  · rw [hdoors, hframe.doors, htold.doors]
    rfl
  · rw [hpay, hframe.pay, htold.pay]
    rfl
  · rw [hfire, hframe.fire, htold.fire]
    rfl
  · rw [htable, hframe.index, htold.table]
    rfl

/-- Settles O37: the entries of an interval, the step by `stepTo_spec`, and SET_TIME as one. -/
theorem setTimeStepsTheClock : Obligations.SetTimeStepsTheClock := by
  refine ⟨fun plan h new => passedEntries_spec plan h new, stepTo_spec, fun notify sec s su h => ⟨fun hsec => ?_, fun hsec hsync => ?_,
    setTime_answered h notify, setTime_frame h notify⟩⟩
  · rw [exec_setTime, carryOut_acts h (.refl s) fun q => if_pos hsec]
  · rw [exec_setTime, carryOut_acts h (.refl s) fun q => ?_]
    exact (if_neg (Nat.not_lt.2 hsec)).trans (if_pos hsync)

end Sys2Proof.Machine
end

section
/-! CERTIFICATE. The sync mark: what is no mark, what is ignored, and what a processed mark leaves (1.3). -/

namespace Sys2Proof.Machine

/-- What a step leaves as it was, and the flag it raises. -/
theorem stepTo_left (target : Stamp) (cause : StepCause) {s : State} (h : s.regs.run ≠ .clearing) :
    StepFrame (timeSet (clampTime target) s) (stepTo target cause s) ∧
    flagSet .clockStep (stepTo target cause s) = true := by
  have hframe := (stepTo_stepFrame target cause s).1
  generalize clampTime target = new at hframe ⊢
  have hreport := report_stepFrame (.clockStep (some s.clock.now) cause) (timeSet new s)
  have hrun : (report (.clockStep (some s.clock.now) cause) (timeSet new s)).regs.run ≠ .clearing :=
    fun hc => h ((report_linkOnly (.clockStep (some s.clock.now) cause) (timeSet new s)).clearing_iff.1 hc)
  exact ⟨(hreport.trans (raise_stepFrame .clockStep _)).trans hframe,
    hframe.flags _ (flagSet_raise_same hrun .clockStep)⟩

/-- The mark in flight is over. -/
def markAccepted (s : State) : State :=
  { s with clock := { s.clock with edge := none, markReady := false } }

theorem acceptMark_of_none {s : State} (h : s.clock.edge = none ∨ s.clock.markReady = false) :
    acceptMark s = s := by
  unfold acceptMark
  rcases h with h | h
  · rw [h]
  · split
    · rfl
    · exact if_pos h

theorem acceptMark_of_edge {s : State} {pos : Stamp} (hedge : s.clock.edge = some pos)
    (hready : s.clock.markReady = true) :
    acceptMark s = if marksProcessed s then processMark pos (markAccepted s) else markAccepted s := by
  unfold acceptMark
  rw [hedge]
  exact if_neg (by rw [hready]; decide)

/-- The state after a processed mark has locked the part. -/
def lockedBy (d : Int) (s : State) : State := changeSync .locked (nudged d (markAccepted s))

/-- The clock that a processed mark leaves when it has locked. -/
def markTaken (d : Int) (s : State) : State :=
  { s with clock := { s.clock with
    edge := none, markReady := false, slew := none, rho := nudgeRho s.clock.rho d, lastDev := d
    holdover := 1200, sync := .locked } }

theorem Clock.sync_locked_self {c : Clock} (h : c.sync = .locked) : { c with sync := .locked } = c := by
  cases c
  cases h
  rfl

theorem lockedBy_eq (d : Int) (s : State) :
    lockedBy d s = if s.clock.sync = .locked then markTaken d s
      else raise .syncChange (report (.syncState s.clock.sync .locked (nudgeRho s.clock.rho d) d)
        (markTaken d s)) := by
  unfold lockedBy changeSync
  by_cases h : s.clock.sync = .locked
  · rw [if_pos h]
    refine (if_pos h).trans ?_
    exact congrArg (fun c : Clock => { s with clock := c })
      (Clock.sync_locked_self (c := (nudged d (markAccepted s)).clock) h).symm
  · rw [if_neg h]
    exact if_neg h

theorem lockedBy_stepFrame (d : Int) (s : State) : StepFrame (markTaken d s) (lockedBy d s) := by
  rw [lockedBy_eq]
  split
  · exact .refl _
  · exact (report_stepFrame _ _).trans (raise_stepFrame _ _)

theorem lockedBy_run {s : State} (h : s.regs.run ≠ .clearing) (d : Int) :
    (lockedBy d s).regs.run ≠ .clearing := by
  have hreport := (report_linkOnly (.syncState s.clock.sync .locked (nudgeRho s.clock.rho d) d)
    (markTaken d s)).clearing_iff
  rw [lockedBy_eq]
  split
  · exact h
  · rw [raise_run]
    exact fun hc => h (hreport.1 hc)

theorem lockedBy_flag {s : State} (h : s.regs.run ≠ .clearing) (d : Int) (hs : s.clock.sync ≠ .locked) :
    flagSet .syncChange (lockedBy d s) = true := by
  have hreport := (report_linkOnly (.syncState s.clock.sync .locked (nudgeRho s.clock.rho d) d)
    (markTaken d s)).clearing_iff
  rw [lockedBy_eq, if_neg hs]
  exact flagSet_raise_same (fun hc => h (hreport.1 hc)) _

theorem processMark_lockedBy (pos : Stamp) (s : State) : processMark pos (markAccepted s) =
    if (deviation pos).natAbs ≤ 2 then lockedBy (deviation pos) s
    else if (deviation pos).natAbs ≤ 32 then { lockedBy (deviation pos) s with
      clock := { (lockedBy (deviation pos) s).clock with slew := some (slewFor (deviation pos)) } }
    else stepTo (markTarget pos (deviation pos)) .sync (lockedBy (deviation pos) s) := rfl

theorem markTarget_eq (pos : Stamp) (d : Int) :
    markTarget pos d = ⟨pos.sec / 60 * 60 + (if 0 ≤ d then 0 else 60), 0⟩ := by
  unfold markTarget
  split <;> rfl

theorem marksProcessed_iff (s : State) : marksProcessed s = true ↔
    s.regs.run ≠ .clearing ∧ s.regs.run ≠ .loading ∧ s.clock.valid = true ∧ s.mode.syncEnable = true ∧
      ¬ (s.clock.now.sec = Config.lastSecond ∧ s.clock.now.beat = 15) := by
  rw [← atEnd_iff]
  cases hrun : s.regs.run <;> simp [marksProcessed, gatesRun, hrun, and_assoc]

theorem exec_syncMark (s : State) : exec .syncMark s = .next (acceptMark s) := rfl

/-- What a processed mark leaves, its deviation `d`. -/
theorem processMark_left {s : State} (hrun : s.regs.run ≠ .clearing) (pos : Stamp) :
    let d := deviation pos
    let t := processMark pos (markAccepted s)
    t.clock.rho = nudgeRho s.clock.rho d ∧
      t.clock.lastDev = d ∧ t.clock.holdover = 1200 ∧ t.clock.sync = .locked ∧
      t.clock.block = s.clock.block ∧ t.clock.valid = s.clock.valid ∧ t.clock.edge = none ∧
      (s.clock.sync ≠ .locked → flagSet .syncChange t = true) ∧
      (d.natAbs ≤ 2 → t.clock.now = s.clock.now ∧ t.clock.slew = none) ∧
      (3 ≤ d.natAbs → d.natAbs ≤ 32 → t.clock.now = s.clock.now ∧ t.clock.slew = some (slewFor d)) ∧
      (33 ≤ d.natAbs → t.clock.slew = none ∧ flagSet .clockStep t = true ∧
        t.clock.now = clampTime (markTarget pos d)) ∧
      t.mode = s.mode ∧ t.lines = s.lines ∧ t.zones = s.zones ∧ t.doors = s.doors ∧
      t.pay = s.pay ∧ t.fire = s.fire ∧ t.table.index = s.table.index := by
  dsimp only
  have hframe := lockedBy_stepFrame (deviation pos) s
  have hflag := lockedBy_flag hrun (deviation pos)
  have hlrun := lockedBy_run hrun (deviation pos)
  rw [processMark_lockedBy]
  generalize deviation pos = d at hframe hflag hlrun ⊢
  have hclock := hframe.clock
  by_cases hsmall : d.natAbs ≤ 2
  · rw [if_pos hsmall, hclock]
    exact ⟨rfl, rfl, rfl, rfl, rfl, rfl, rfl, hflag, fun _ => ⟨rfl, rfl⟩, fun _ => by omega,
      fun _ => by omega, hframe.mode, hframe.lines, hframe.zones, hframe.doors, hframe.pay, hframe.fire,
      hframe.index⟩
  rw [if_neg hsmall]
  by_cases hslew : d.natAbs ≤ 32
  · rw [if_pos hslew]
    dsimp only
    rw [hclock]
    exact ⟨rfl, rfl, rfl, rfl, rfl, rfl, rfl, hflag, fun _ => by omega, fun _ _ => ⟨rfl, rfl⟩,
      fun _ => by omega, hframe.mode, hframe.lines, hframe.zones, hframe.doors, hframe.pay, hframe.fire,
      hframe.index⟩
  · rw [if_neg hslew]
    obtain ⟨hstep, hstepflag⟩ := stepTo_left (markTarget pos d) .sync hlrun
    have htime := hstep.clock
    unfold timeSet at htime
    dsimp only at htime
    rw [hclock] at htime
    rw [htime]
    exact ⟨rfl, rfl, rfl, rfl, rfl, rfl, rfl, fun h => hstep.flags _ (hflag h), fun _ => by omega,
      fun _ => by omega, fun _ => ⟨rfl, hstepflag, rfl⟩, hstep.mode.trans hframe.mode,
      hstep.lines.trans hframe.lines, hstep.zones.trans hframe.zones, hstep.doors.trans hframe.doors,
      hstep.pay.trans hframe.pay, hstep.fire.trans hframe.fire, hstep.index.trans hframe.index⟩

/-- Settles O27: no mark, an ignored one, and a processed one by the size of its deviation. -/
theorem syncMarkDisciplinesTheClock : Obligations.SyncMarkDisciplinesTheClock := by
  intro s pos p d end_
  refine ⟨fun h => congrArg Host.Outcome.next (acceptMark_of_none h), fun hedge hready => ?_⟩
  have haccept := acceptMark_of_edge hedge hready
  have hmarks := marksProcessed_iff s
  refine ⟨fun h => ?_, ?_⟩
  · have hno : ¬ marksProcessed s = true := by
      rw [hmarks]
      rintro ⟨h1, h2, h3, h4, h5⟩
      rcases h with h | h | h | h | h
      · exact h1 h
      · exact h2 h
      · rw [h] at h3; cases h3
      · rw [h] at h4; cases h4
      · exact h5 h
    rw [exec_syncMark, haccept, if_neg hno]
    rfl
  · intro hclear hload hvalid hsync hend rho taken locked
    have hprocessed : exec .syncMark s = .next (processMark pos (markAccepted s)) := by
      rw [exec_syncMark, haccept, if_pos (hmarks.2 ⟨hclear, hload, hvalid, hsync, hend⟩)]
    have hlocked : lockedBy (deviation pos) s = locked := lockedBy_eq _ s
    have hcases := processMark_lockedBy pos s
    rw [hlocked, markTarget_eq] at hcases
    obtain ⟨hrho, hdev, hhold, hstate, hblock, hval, hedge', hflag, hsmall, hslew, hstep, hrest⟩ :=
      processMark_left hclear pos
    rw [markTarget_eq] at hstep
    refine ⟨fun h => ?_, fun hlow hhigh => ?_, fun h => ?_, _, hprocessed, hrho, hdev, hhold, hstate, hblock,
      hval.trans hvalid, hedge', hflag, hsmall, hslew, hstep, hrest⟩
    · rw [hprocessed, hcases]
      exact congrArg Host.Outcome.next (if_pos h)
    · have hmore : ¬ (deviation pos).natAbs ≤ 2 := fun h => absurd (Nat.le_trans hlow h) (by decide)
      rw [hprocessed, hcases, if_neg hmore]
      exact congrArg Host.Outcome.next (if_pos hhigh)
    · have hmore : ¬ (deviation pos).natAbs ≤ 2 := fun h' => absurd (Nat.le_trans h h') (by decide)
      have hmost : ¬ (deviation pos).natAbs ≤ 32 := fun h' => absurd (Nat.le_trans h h') (by decide)
      rw [hprocessed, hcases, if_neg hmore, if_neg hmost]
      rfl

end Sys2Proof.Machine
end

section
/-! CERTIFICATE. Functions without a state: rounding (7.3), the amounts of a statement record (7.5) and the
judgement of a frame (3.1). -/

namespace Sys2Proof.Machine

/-! ### Rounding (R122) -/

/-- The least multiple of `q` not less than `t`. -/
theorem ceilMul_spec {q : Nat} (hq : 0 < q) (t : Nat) :
    q ∣ (t + q - 1) / q * q ∧ t ≤ (t + q - 1) / q * q ∧
      ∀ n : Nat, q ∣ n → t ≤ n → (t + q - 1) / q * q ≤ n := by
  refine ⟨Nat.dvd_mul_left _ _, ?_, ?_⟩
  · have hsplit := Nat.div_add_mod (t + q - 1) q
    have hrest := Nat.mod_lt (t + q - 1) hq
    rw [Nat.mul_comm] at hsplit
    omega
  · rintro n ⟨k, rfl⟩ hle
    rw [Nat.mul_comm q k]
    refine Nat.mul_le_mul_right q (Nat.lt_succ_iff.1 ((Nat.div_lt_iff_lt_mul hq).2 ?_))
    rw [Nat.succ_mul, Nat.mul_comm]
    omega

/-- The greatest multiple of `q` not greater than `t`. -/
theorem floorMul_spec (q t : Nat) :
    q ∣ t / q * q ∧ t / q * q ≤ t ∧ ∀ n : Nat, q ∣ n → n ≤ t → n ≤ t / q * q := by
  refine ⟨Nat.dvd_mul_left _ _, Nat.div_mul_le_self t q, ?_⟩
  rintro n ⟨k, rfl⟩ hle
  rcases Nat.eq_zero_or_pos q with rfl | hq
  · simp
  · rw [Nat.mul_comm q k] at hle ⊢
    exact Nat.mul_le_mul_right q ((Nat.le_div_iff_mul_le hq).2 hle)

/-- An addition short of the quantum does not reach the next multiple. -/
theorem mul_add_div_self {q k x : Nat} (hx : x < q) : (q * k + x) / q * q = q * k := by
  rw [Nat.mul_add_div (by omega), Nat.div_eq_of_lt hx, Nat.add_zero, Nat.mul_comm]

/-- Settles O54: the least and the greatest multiple, and the division of NEAREST. -/
theorem roundingKeepsToTheQuantum : Obligations.RoundingKeepsToTheQuantum := by
  intro r t hq q
  have hpos : 0 < q := Nat.mul_pos hq (by decide)
  refine ⟨fun hr => ?_, fun hr => ?_, ?_⟩
  · have hin : roundIn r t = (t + q - 1) / q * q := by rw [roundIn, hr]
    have hout : roundOut r t = t / q * q := by rw [roundOut, hr]
    obtain ⟨hdvd, hle, hleast⟩ := ceilMul_spec hpos t
    rw [hin, hout]
    exact ⟨hdvd, hle, hleast, floorMul_spec q t⟩
  · exact ⟨by rw [roundIn, hr], by rw [roundOut, hr]⟩
  · rintro ⟨k, hk⟩
    cases hr : r.rounding with
    | favourPlant =>
      constructor
      · rw [roundIn, hr, hk]
        dsimp only
        rw [Nat.add_sub_assoc hpos]
        exact mul_add_div_self (by omega)
      · rw [roundOut, hr, hk]
        exact mul_add_div_self (x := 0) hpos
    | nearest =>
      have hin : roundIn r t = t := by
        rw [roundIn, hr, hk]
        exact mul_add_div_self (by omega)
      exact ⟨hin, by rw [roundOut, hr]; exact hin⟩

/-! ### Statement records (R131, R133) -/

/-- Settles O35: each field as the record gives it, and the LATE flag by the open interval. -/
theorem statementRecordPricesEachClass : Obligations.StatementRecordPricesEachClass := by
  intro p now slot w reset r rate x
  refine ⟨rfl, rfl, rfl, rfl, rfl, rfl, rfl, rfl, rfl, rfl, rfl, rfl, rfl, rfl, rfl, rfl, rfl, rfl, rfl,
    ?_⟩
  have hlate : x.latePending = w.interval.elim false (·.late) := by
    cases h : w.interval <;> simp only [x, statementRec, h] <;> rfl
  rw [hlate]
  cases w.interval <;> simp

/-! ### Frames (R45) -/

theorem ofCode_toNat_iff (b : Byte) (k : FrameKind) :
    FrameKind.ofCode b.toNat = some k ↔ b = byteOf k.code := by
  have hsame : ∀ n : Nat, n < 256 → (b.toNat = n ↔ b = byteOf n) := fun n hn => by
    rw [← BitVec.toNat_inj, byteOf, BitVec.toNat_ofNat, Nat.mod_eq_of_lt (by omega)]
  have h1 := hsame 0x31 (by decide)
  have h2 := hsame 0x32 (by decide)
  have h3 := hsame 0x33 (by decide)
  unfold FrameKind.ofCode
  cases k <;> simp only [FrameKind.code, ← h1, ← h2, ← h3] <;> clear h1 h2 h3 <;> split_ifs <;> simp <;>
    omega

theorem judgeFrame_eq_some {bytes : List Byte} {framing : Bool} {k : FrameKind} :
    judgeFrame bytes framing = some k ↔ FrameKind.ofCode (bytes.headD 0).toNat = some k ∧
      framing = false ∧ bytes.length = k.length ∧ checkByte bytes.dropLast = bytes.getLastD 0 ∧
      (k = .present → (bytes.getD 7 0).toNat ≤ 15) := by
  unfold judgeFrame
  cases FrameKind.ofCode (bytes.headD 0).toNat with
  | none => simp
  | some k' =>
    by_cases hk : k' = k
    · subst hk
      simp only [ite_eq_left_iff, reduceCtorEq, imp_false, not_not, Bool.and_eq_true, true_and,
        Bool.not_eq_true', beq_iff_eq, Bool.or_eq_true, bne_iff_ne, ne_eq, decide_eq_true_eq,
        imp_iff_not_or, and_assoc]
    · simp [hk]

/-- Settles O47: the tests of `judgeFrame` on a frame that is not empty. -/
theorem validFramesAreJudged : Obligations.ValidFramesAreJudged := by
  intro bytes framing k
  rw [judgeFrame_eq_some]
  cases bytes with
  | nil => cases k <;> simp [FrameKind.length]
  | cons b rest =>
    have hlast : (b :: rest).getLast? = some ((b :: rest).getLastD 0) := by
      rw [List.getLastD_eq_getLast?, List.getLast?_cons]
      rfl
    have hissue : (b :: rest).length = k.length → ((k = .present → ((b :: rest).getD 7 0).toNat ≤ 15) ↔
        (k = .present → ∀ issue : Byte, (b :: rest)[7]? = some issue → issue.toNat ≤ 15)) := by
      intro hlen
      refine imp_congr_right ?_
      rintro rfl
      have hseven : 7 < (b :: rest).length := by rw [hlen]; decide
      rw [List.getD_eq_getElem _ _ hseven, List.getElem?_eq_getElem hseven]
      simp
    rw [List.headD_cons, ofCode_toNat_iff, hlast, List.head?_cons, Option.some_inj, Option.some_inj,
      eq_comm (a := checkByte _)]
    constructor
    · rintro ⟨hkind, hframe, hlen, hcheck, h⟩
      exact ⟨hframe, hlen, hkind, hcheck, (hissue hlen).1 h⟩
    · rintro ⟨hframe, hlen, hkind, hcheck, h⟩
      exact ⟨hkind, hframe, hlen, hcheck, (hissue hlen).2 h⟩

end Sys2Proof.Machine
end

section
/-! CERTIFICATE. Requests whose block changes one table or one door and ends at the take: CAL_SET (1.8),
AMEND and WITHDRAW without FORCE (2.5), DOOR_PULSE (5.7) and RING (8.7). -/

namespace Sys2Proof.Machine

/-! ### CAL_SET (R18) -/

theorem exec_calSet (notify : Bool) (day type : Nat) (s : State) :
    exec (.calSet notify day type) s = .next (carryOut (.calSet day type) notify (takeCalSet day type) s) :=
  rfl

theorem mem_putException {day type : Nat} {e : Nat × Nat} : ∀ {l : List (Nat × Nat)},
    l.Pairwise (fun a b => a.1 < b.1) →
      (e ∈ putException day type l ↔ e = (day, type) ∨ (e.1 ≠ day ∧ e ∈ l))
  | [], _ => by simp [putException]
  | (d, t) :: rest, h => by
    obtain ⟨hhead, hrest⟩ := List.pairwise_cons.1 h
    have ih := mem_putException (day := day) (type := type) (e := e) hrest
    unfold putException
    by_cases heq : day = d
    · subst heq
      rw [if_pos rfl, List.mem_cons]
      refine or_congr_right ⟨fun he => ⟨(hhead e he).ne', List.mem_cons_of_mem _ he⟩, fun ⟨hne, he⟩ => ?_⟩
      rcases List.mem_cons.1 he with rfl | he
      · exact absurd rfl hne
      · exact he
    rw [if_neg heq]
    by_cases hlt : day < d
    · rw [if_pos hlt, List.mem_cons]
      refine or_congr_right ⟨fun he => ⟨?_, he⟩, And.right⟩
      rcases List.mem_cons.1 he with rfl | he
      · exact Ne.symm heq
      · have := hhead e he
        dsimp only at this
        omega
    · rw [if_neg hlt, List.mem_cons, ih, List.mem_cons]
      constructor
      · rintro (rfl | rfl | ⟨hne, he⟩)
        · exact .inr ⟨Ne.symm heq, .inl rfl⟩
        · exact .inl rfl
        · exact .inr ⟨hne, .inr he⟩
      · rintro (rfl | ⟨hne, rfl | he⟩)
        · exact .inr (.inl rfl)
        · exact .inl rfl
        · exact .inr (.inr ⟨hne, he⟩)

theorem putException_sorted {day type : Nat} : ∀ {l : List (Nat × Nat)},
    l.Pairwise (fun a b => a.1 < b.1) → (putException day type l).Pairwise (fun a b => a.1 < b.1)
  | [], _ => List.pairwise_singleton _ _
  | (d, t) :: rest, h => by
    obtain ⟨hhead, hrest⟩ := List.pairwise_cons.1 h
    unfold putException
    split
    next heq =>
      subst heq
      exact List.pairwise_cons.2 ⟨hhead, hrest⟩
    split
    next hlt =>
      refine List.pairwise_cons.2 ⟨fun e he => ?_, h⟩
      rcases List.mem_cons.1 he with rfl | he
      · exact hlt
      · exact lt_trans hlt (hhead e he)
    next hne hge =>
      refine List.pairwise_cons.2 ⟨fun e he => ?_, putException_sorted hrest⟩
      rcases (mem_putException hrest).1 he with rfl | ⟨-, he⟩
      · dsimp only
        omega
      · exact hhead e he

/-- The day's entry that a look-up finds. -/
theorem mem_of_exceptionType {cal : Calendar} {day type : Nat}
    (h : exceptionType cal day = some type) : (day, type) ∈ cal.exceptions := by
  obtain ⟨⟨d, t⟩, hfind, rfl⟩ := Option.map_eq_some_iff.1 h
  obtain rfl : d = day := eq_of_beq (List.find?_some (p := fun e : Nat × Nat => e.1 == day) hfind)
  exact List.mem_of_find?_eq_some hfind

/-- In a list in day order a day has the type of its entry. -/
theorem exceptionType_eq_some_iff {cal : Calendar} {day type : Nat}
    (h : cal.exceptions.Pairwise (fun a b => a.1 < b.1)) :
    exceptionType cal day = some type ↔ (day, type) ∈ cal.exceptions := by
  refine ⟨mem_of_exceptionType, fun hmem => ?_⟩
  cases hsome : exceptionType cal day with
  | none => exact absurd hmem (exceptionType_eq_none_iff.1 hsome type)
  | some t =>
    have hnodup : (cal.exceptions.map Prod.fst).Nodup := List.pairwise_map.2 (h.imp ne_of_lt)
    have hsame := List.inj_on_of_nodup_map hnodup (mem_of_exceptionType hsome) hmem rfl
    exact congrArg some (Prod.mk.inj hsame).2

theorem exceptionType_putException_same (cal : Calendar) {day type : Nat}
    (h : cal.exceptions.Pairwise (fun a b => a.1 < b.1)) :
    exceptionType { cal with exceptions := putException day type cal.exceptions } day = some type :=
  (exceptionType_eq_some_iff (cal := { cal with exceptions := putException day type cal.exceptions })
    (putException_sorted h)).2 ((mem_putException h).2 (.inl rfl))

theorem exceptionType_putException_other (cal : Calendar) {day type d : Nat}
    (h : cal.exceptions.Pairwise (fun a b => a.1 < b.1)) (hd : d ≠ day) :
    exceptionType { cal with exceptions := putException day type cal.exceptions } d =
      exceptionType cal d := by
  have hmem : ∀ x : Nat, (d, x) ∈ putException day type cal.exceptions ↔ (d, x) ∈ cal.exceptions :=
    fun x => by simp [mem_putException h, hd]
  refine Option.ext fun x => ?_
  exact (exceptionType_eq_some_iff (putException_sorted h)).trans
    ((hmem x).trans (exceptionType_eq_some_iff h).symm)

theorem takeCalSet_of_fits {day type : Nat} {s : State} (hday : day ≤ 32767) (htype : type ≤ 7) :
    takeCalSet day type s =
      if (exceptionType s.cal day).isNone ∧ 64 ≤ s.cal.exceptions.length then
        endRequest .noRoom none none s
      else endRequest .done none none
        { s with cal := { s.cal with exceptions := putException day type s.cal.exceptions } } := by
  refine if_neg ?_
  rintro (h | h)
  · exact absurd h (Nat.not_lt.2 hday)
  · omega

/-- Settles O38: the refusals, and a day's entry replaced or inserted in day order. -/
theorem calSetGivesTheDayItsType : Obligations.CalSetGivesTheDayItsType := by
  intro notify day type s su h
  refine ⟨fun hout => ?_, fun hday htype hnone hfull => ?_, fun hday htype hroom hsorted =>
    ⟨putException day type s.cal.exceptions, ?_, putException_sorted hsorted,
      (mem_putException hsorted).2 (.inl rfl), fun d x hd => by simp [mem_putException hsorted, hd], ?_,
      fun d hd => dayType_congr_exceptionType (exceptionType_putException_other s.cal hsorted hd)⟩⟩
  · rw [exec_calSet, carryOut_acts h (.refl s) fun q => if_pos hout]
  · rw [exec_calSet, carryOut_acts h (.refl s) fun q => ?_]
    rw [takeCalSet_of_fits hday htype]
    exact if_pos ⟨Option.isNone_iff_eq_none.2 hnone, hfull⟩
  · have hset : ServeStep s { s with cal := { s.cal with
        exceptions := putException day type s.cal.exceptions } } := serveStep_of_eq rfl rfl rfl
    rw [exec_calSet, carryOut_acts h hset fun q => ?_]
    rw [takeCalSet_of_fits hday htype]
    refine if_neg ?_
    rintro ⟨hnone, hfull⟩
    rcases hroom with hsome | hroom
    · rw [Option.isNone_iff_eq_none] at hnone
      exact absurd hsome (by rw [show exceptionType s.cal day = none from hnone]; decide)
    · exact absurd hfull (Nat.not_le.2 hroom)
  · rw [dayType, exceptionType_putException_same s.cal hsorted]

/-! ### AMEND (R33) -/

theorem exec_amend (notify : Bool) (p : AmendParams) (s : State) :
    exec (.amend notify p) s = .next (carryOut (.amend p) notify (takeAmend p) s) := rfl

theorem takeAmend_of_used {p : AmendParams} {w : Worker} {s : State} (hrange : amendInRange s p = true)
    (hw : workerAt s p.vals.slot = some w) :
    takeAmend p s = if badgeTaken s p then endRequest .badgeInUse (some 0) none s
      else endRequest .done (some 0) none (amendSlot p w s) := by
  unfold takeAmend
  rw [hrange, hw]
  rfl

/-- Settles O29: the refusals in their order, and what `amendSlot` writes. -/
theorem amendWritesThePresentFields : Obligations.AmendWritesThePresentFields := by
  intro notify p s su h v
  refine ⟨fun hrange => ?_, fun hrange hnone => ?_, fun w hrange hw => ⟨fun k hmask hk hne => ?_,
    ?_⟩⟩
  · rw [exec_amend, carryOut_acts h (.refl s) fun q => ?_]
    refine if_pos ?_
    rw [show amendInRange (withRequest q s) p = false from hrange]
    rfl
  · rw [exec_amend, carryOut_acts h (.refl s) fun q => ?_]
    unfold takeAmend
    rw [show amendInRange (withRequest q s) p = true from hrange, workerAt_withRequest,
      show workerAt s p.vals.slot = none from hnone]
    rfl
  · have htaken : badgeTaken s p = true := by
      rw [badgeTaken, hmask, show lookupBadge p.vals.badge s.table.index = some k from hk]
      simpa using hne
    rw [exec_amend, carryOut_acts h (.refl s) fun q => ?_]
    rw [takeAmend_of_used (s := withRequest q s) hrange hw]
    exact if_pos htaken
  · intro hfree badge
    have hnot : badgeTaken s p = false := by
      rw [badgeTaken]
      rcases hfree with hoff | hnone | hsame
      · rw [hoff]
        rfl
      · rw [show lookupBadge p.vals.badge s.table.index = none from hnone, Bool.and_false]
      · rw [show lookupBadge p.vals.badge s.table.index = some p.vals.slot from hsame]
        simp
    have hserve : ServeStep s (amendSlot p w s) := serveStep_of_eq rfl rfl rfl
    rw [exec_amend, carryOut_acts h hserve fun q => ?_]
    · refine congrArg (fun l => Host.Outcome.next (answered su notify .done (some 0) none
        { s with table := { s.table with
          workers := putSlot p.vals.slot (amendWorker s.cal p w) s.table.workers, index := l } })) ?_
      unfold moveBadge
      exact if_congr eq_comm rfl rfl
    · rw [takeAmend_of_used (s := withRequest q s) hrange hw]
      exact if_neg (by rw [show badgeTaken (withRequest q s) p = false from hnot]; decide)

/-! ### WITHDRAW without FORCE (R35) -/

theorem exec_withdraw (notify : Bool) (slot : Nat) (force : Bool) (out : OutArea) (s : State) :
    exec (.withdraw notify slot force out) s =
      .next (carryOut (.withdraw slot force out) notify (takeWithdraw slot force out) s) := rfl

theorem takeWithdraw_of_refused {s : State} {slot : Nat} {force : Bool} {out : OutArea} {st : Status}
    (h : withdrawTest s slot force out = some st) :
    takeWithdraw slot force out s = endRequest st (some 0) none s := by
  rw [takeWithdraw, h]

theorem exec_withdraw_refused {s : State} {su : Setup} {slot : Nat} {force : Bool} {out : OutArea}
    {st : Status} (h : ReadyFor s su) (notify : Bool) (ht : withdrawTest s slot force out = some st) :
    exec (.withdraw notify slot force out) s = .next (answered su notify st (some 0) none s) := by
  rw [exec_withdraw, carryOut_acts h (.refl s) fun q => ?_]
  exact takeWithdraw_of_refused (s := withRequest q s) ht

theorem withdrawTest_of_range {s : State} {slot : Nat} (h : slotInRange s slot = false) (force : Bool)
    (out : OutArea) : withdrawTest s slot force out = some .range := by
  rw [withdrawTest, h]
  rfl

theorem withdrawTest_of_empty {s : State} {slot : Nat} (h : slotInRange s slot = true)
    (hw : workerAt s slot = none) (force : Bool) (out : OutArea) :
    withdrawTest s slot force out = some .slotEmpty := by
  rw [withdrawTest, h, hw]
  rfl

theorem withdrawTest_of_used {s : State} {slot : Nat} {w : Worker} (h : slotInRange s slot = true)
    (hw : workerAt s slot = some w) (force : Bool) (out : OutArea) :
    withdrawTest s slot force out =
      if grantNames s slot then some .grantPending
      else if force then outputTest out
      else if settled w then none else some .notSettled := by
  rw [withdrawTest, h, hw]
  rfl

theorem settled_iff (w : Worker) : settled w = true ↔
    w.interval = none ∧ w.reg = 0 ∧ w.night = 0 ∧ w.ot = 0 ∧ w.hol = 0 := by
  simp [settled, and_assoc]

theorem freeWorker_of_used {s : State} {slot : Nat} {w : Worker} (hw : workerAt s slot = some w) :
    freeWorker slot s = modZone w.location (fun z => { z with occupancy := z.occupancy - 1 })
      { s with table := { s.table with
          workers := dropSlot slot s.table.workers
          index := dropBadge w.badge s.table.index } } := by
  unfold freeWorker
  rw [hw]
  rfl

theorem freeWorker_withRequest (q : Option Request) (slot : Nat) (s : State) :
    freeWorker slot (withRequest q s) = withRequest q (freeWorker slot s) := by
  unfold freeWorker
  rw [workerAt_withRequest]
  split
  · rfl
  · next w _ =>
    exact modZone_withRequest q w.location _ { s with table := { s.table with
      workers := dropSlot slot s.table.workers
      index := dropBadge w.badge s.table.index } }

/-- Settles O30: the refusals by `withdrawTest_of_used`, and the freeing of the slot. -/
theorem withdrawFreesTheSettledWorker : Obligations.WithdrawFreesTheSettledWorker := by
  intro notify slot out s su h
  refine ⟨fun hr => exec_withdraw_refused h notify (withdrawTest_of_range hr false out),
    fun hr hw => exec_withdraw_refused h notify (withdrawTest_of_empty hr hw false out),
    fun w hr hw => ?_⟩
  have htest := withdrawTest_of_used hr hw false out
  refine ⟨fun hg => ?_, fun hg hunsettled => ?_, fun hg hoff hreg hnight hot hhol => ?_⟩
  · exact exec_withdraw_refused h notify (by rw [htest, if_pos hg])
  · have hnot : ¬ settled w = true := by
      rw [settled_iff]
      rintro ⟨hi, hreg, hnight, hot, hhol⟩
      rcases hunsettled with hon | hne | hne | hne | hne
      · rw [hi] at hon
        cases hon
      · exact hne hreg
      · exact hne hnight
      · exact hne hot
      · exact hne hhol
    exact exec_withdraw_refused h notify (by rw [htest, hg]; exact if_neg hnot)
  · have hsettled : settled w = true := (settled_iff w).2 ⟨hoff, hreg, hnight, hot, hhol⟩
    have hnone : withdrawTest s slot false out = none := by
      rw [htest, hg]
      exact if_pos hsettled
    have hfree := freeWorker_of_used hw
    have hserve : ServeStep s (freeWorker slot s) := by
      rw [hfree]
      exact serveStep_of_eq (by simp) (by simp) (by simp)
    rw [exec_withdraw, carryOut_acts h hserve fun q => ?_, hfree]
    rw [← freeWorker_withRequest, takeWithdraw,
      show withdrawTest (withRequest q s) slot false out = none from hnone]
    rfl

/-! ### DOOR_PULSE (R97) -/

theorem exec_doorPulse (notify : Bool) (door duration : Nat) (s : State) :
    exec (.doorPulse notify door duration) s =
      .next (carryOut (.doorPulse door duration) notify (takeDoorPulse door duration) s) := rfl

theorem doorOf_val (d : DoorNo) : doorOf d.val = some d := dif_pos d.isLt

theorem doorOf_eq_none {n : Nat} (h : 11 < n) : doorOf n = none := dif_neg (by omega)

/-- The take at a door that is not LOCKED, by the door's state. -/
theorem takeDoorPulse_of_unlocked {s : State} {d : DoorNo} (duration : Nat)
    (h : s.doors[d].entry.mode ≠ .locked) :
    (s.doors[d].state = .fault →
      takeDoorPulse d.val duration s = endRequest .doorFault none none s) ∧
    (s.doors[d].state = .secure →
      takeDoorPulse d.val duration s = endRequest .done (some 1) none
        (modDoor d (releaseFor s.mode.rehearsal (pulseSeconds s.doors[d] duration)) s)) ∧
    (s.doors[d].state = .released →
      takeDoorPulse d.val duration s = endRequest .done (some 1) none
        (modDoor d (fun e => { e with release := some (pulseSeconds s.doors[d] duration * 16) }) s)) ∧
    (s.doors[d].state = .open_ ∨ s.doors[d].state = .held ∨ s.doors[d].state = .forced ∨
        s.doors[d].state = .free ∨ s.doors[d].state = .egress →
      takeDoorPulse d.val duration s = endRequest .done (some 0) none s) := by
  unfold takeDoorPulse
  rw [doorOf_val]
  dsimp only
  rw [if_neg h]
  refine ⟨fun hs => by rw [hs], fun hs => by rw [hs], fun hs => by rw [hs], ?_⟩
  rintro (hs | hs | hs | hs | hs) <;> rw [hs]

theorem modDoor_congr {d : DoorNo} {f g : Door → Door} {s : State} (h : f s.doors[d] = g s.doors[d]) :
    modDoor d f s = modDoor d g s := by
  unfold modDoor
  rw [h]

/-- A release of a door that is commanded LOCKED, outside rehearsal. -/
theorem releaseFor_of_locked {e : Door} (h : e.cmd = .locked) (seconds : Nat) :
    releaseFor false seconds e = { e with
      state := .released
      release := some (seconds * 16)
      held := none
      alarmStart := none
      openStart := none
      cmd := .released
      settle := if e.entry.supervised = true then some 4 else none
      disagree := 0 } := by
  simp [releaseFor, enter, drive, relayOf, h, Config.settleBeats]

/-- A release of a door in rehearsal leaves its relay LOCKED. -/
theorem releaseFor_of_rehearsal {e : Door} (h : e.cmd = .locked) (seconds : Nat) :
    releaseFor true seconds e = { e with
      state := .released
      release := some (seconds * 16)
      held := none
      alarmStart := none
      openStart := none } := by
  simp [releaseFor, enter, drive, h]

theorem pulseSeconds_mul (e : Door) (duration : Nat) :
    pulseSeconds e duration * 16 = 16 * (if duration = 0 then e.entry.release else min 60 duration) := by
  unfold pulseSeconds
  split <;> omega

/-- Settles O42: the take by the door's state, and the door that a release leaves. -/
theorem doorPulseReleasesTheDoor : Obligations.DoorPulseReleasesTheDoor := by
  intro notify door duration s su h
  refine ⟨fun hdoor => ?_, ?_⟩
  · rw [exec_doorPulse, carryOut_acts h (.refl s) fun q => ?_]
    unfold takeDoorPulse
    rw [doorOf_eq_none hdoor]
  rintro d rfl e beats
  have hbeats : pulseSeconds e duration * 16 = beats := pulseSeconds_mul e duration
  have hreleased : ∀ f : Door → Door, ServeStep s (modDoor d f s) := fun _ =>
    serveStep_of_eq rfl rfl rfl
  have htake : ∀ q, _ := fun q => takeDoorPulse_of_unlocked (s := withRequest q s) (d := d) duration
  refine ⟨fun hmode => ?_, fun hmode hstate => ?_, fun hmode hstate hr hcmd => ?_,
    fun hmode hstate hr hcmd => ?_, fun hmode hstate => ?_, fun hmode hstate => ?_⟩
  · rw [exec_doorPulse, carryOut_acts h (.refl s) fun q => ?_]
    unfold takeDoorPulse
    rw [doorOf_val]
    exact if_pos hmode
  · rw [exec_doorPulse, carryOut_acts h (.refl s) fun q => ?_]
    exact (htake q hmode).1 hstate
  · rw [exec_doorPulse]
    refine congrArg Host.Outcome.next (carryOut_acts h (hreleased _) fun q => ?_)
    refine ((htake q hmode).2.1 hstate).trans (congrArg
      (fun u => endRequest .done (some 1) none (withRequest q u)) (modDoor_congr (s := s)
        (f := releaseFor s.mode.rehearsal (pulseSeconds s.doors[d] duration)) ?_))
    rw [← hbeats, show s.mode.rehearsal = false from hr]
    exact releaseFor_of_locked hcmd _
  · rw [exec_doorPulse]
    refine congrArg Host.Outcome.next (carryOut_acts h (hreleased _) fun q => ?_)
    refine ((htake q hmode).2.1 hstate).trans (congrArg
      (fun u => endRequest .done (some 1) none (withRequest q u)) (modDoor_congr (s := s)
        (f := releaseFor s.mode.rehearsal (pulseSeconds s.doors[d] duration)) ?_))
    rw [← hbeats, show s.mode.rehearsal = true from hr]
    exact releaseFor_of_rehearsal hcmd _
  · rw [exec_doorPulse]
    refine congrArg Host.Outcome.next (carryOut_acts h (hreleased _) fun q => ?_)
    rw [← hbeats]
    exact (htake q hmode).2.2.1 hstate
  · rw [exec_doorPulse, carryOut_acts h (.refl s) fun q => ?_]
    exact (htake q hmode).2.2.2 hstate

/-! ### RING (R149) -/

theorem exec_ring (notify : Bool) (mask : BitVec 8) (pattern duration : Nat) (s : State) :
    exec (.ring notify mask pattern duration) s =
      .next (carryOut (.ring mask pattern duration) notify (takeRing mask pattern duration) s) := rfl

theorem ofCode_of_gt : ∀ {n : Nat}, 2 < n → Pattern.ofCode n = none
  | _ + 3, _ => rfl

/-- The circuits that take a RING, in RUNNING. -/
theorem ringTakers_eq {mask : BitVec 8} {s : State} (h : gatesRun s = true) :
    ringTakers mask s = allCircuits.filter fun c => !s.mode.bellsOff && !s.mode.rehearsal &&
      mask.getLsbD c.val && !s.bells.circuits[c].isEvac := by
  unfold ringTakers bellsSound
  rw [h]
  cases s.mode.bellsOff <;> cases s.mode.rehearsal <;> simp

theorem foldl_modCircuit_withRequest (q : Option Request) (f : Circuit → Circuit) :
    ∀ (l : List CircuitNo) (s : State), l.foldl (fun s c => modCircuit c f s) (withRequest q s) =
      withRequest q (l.foldl (fun s c => modCircuit c f s) s)
  | [], _ => rfl
  | c :: rest, s => foldl_modCircuit_withRequest q f rest (modCircuit c f s)

/-- Settles O44: the circuits that take the sounding, and how it replaces theirs. -/
theorem ringSoundsTheMaskedCircuits : Obligations.RingSoundsTheMaskedCircuits := by
  intro notify mask pattern duration s su h
  refine ⟨fun hpattern => ?_, ?_⟩
  · rw [exec_ring, carryOut_acts h (.refl s) fun q => ?_]
    rw [takeRing, ofCode_of_gt hpattern]
  intro p hp beats takes
  have hgates : gatesRun s = true := by rw [gatesRun, h.running]; rfl
  have htakers : ringTakers mask s = allCircuits.filter takes := ringTakers_eq hgates
  let sound := Circuit.sound p (min 30 (max 1 duration))
  let rung := allCircuits.foldl (fun s c => if takes c then modCircuit c sound s else s) s
  have hrung : rung = { s with bells := { s.bells with circuits := rung.bells.circuits } } :=
    foldl_modCircuit_eq takes sound allCircuits s
  refine ⟨rung.bells.circuits, ?_, fun c => ?_⟩
  · have hserve : ServeStep s rung := by
      rw [hrung]
      exact serveStep_of_eq rfl rfl rfl
    rw [exec_ring, carryOut_acts h hserve fun q => ?_]
    · exact congrArg (fun u => Host.Outcome.next (answered su notify .done
        (some (allCircuits.countP takes)) none u)) hrung
    · rw [takeRing, hp]
      dsimp only
      rw [show ringTakers mask (withRequest q s) = allCircuits.filter takes from htakers,
        foldl_modCircuit_withRequest, List.foldl_filter, List.countP_eq_length_filter]
  · have hcircuit := foldl_modCircuit_circuit takes sound c allCircuits s (by decide)
    refine hcircuit.trans ?_
    by_cases ht : takes c = true
    · have hevac : s.bells.circuits[c].isEvac = false := by
        simp only [takes, Bool.and_eq_true, Bool.not_eq_true'] at ht
        exact ht.2
      rw [if_pos ⟨mem_allCircuits c, ht⟩, if_pos ht]
      have hbeats : soundingBeats p (min 30 (max 1 duration)) = beats := by
        cases p <;> simp [soundingBeats, beats, Nat.mul_comm]
      cases hc : s.bells.circuits[c] with
      | evacuate n => rw [hc] at hevac; cases hevac
      | idle | sounding => simp only [sound, Circuit.sound, hbeats]
    · rw [if_neg fun x => ht x.2, if_neg ht]

end Sys2Proof.Machine
end

section
/-! CERTIFICATE. The frames of a reader line (3.1, 3.2), the bell entries and the soundings (8.2 to 8.6), and
the muster list (9.3). -/

namespace Sys2Proof.Machine

/-! ### Frames (R44 to R50) -/

theorem exec_frameEnd (l : LineNo) (bytes : List Byte) (framing : Bool) (at_ : Stamp) (s : State) :
    exec (.frameEnd l bytes framing at_) s = .next (frameEnds l bytes framing at_ s) := rfl

theorem modLine_line (l k : LineNo) (f : Line → Line) (s : State) :
    (modLine l f s).lines[k] = if k = l then f s.lines[k] else s.lines[k] := by
  by_cases h : k = l
  · subst h
    rw [if_pos rfl, modLine_same]
  · rw [if_neg h, modLine_other l k (Ne.symm h)]

/-- `t` differs from `s` in the lines and by a link operation. -/
structure LineStep (s t : State) : Prop where
  clock : t.clock = s.clock
  mode : t.mode = s.mode
  cal : t.cal = s.cal
  table : t.table = s.table
  zones : t.zones = s.zones
  doors : t.doors = s.doors
  pay : t.pay = s.pay
  bells : t.bells = s.bells
  fire : t.fire = s.fire

theorem LineStep.refl (s : State) : LineStep s s := ⟨rfl, rfl, rfl, rfl, rfl, rfl, rfl, rfl, rfl⟩

theorem LineStep.trans {s t u : State} (h : LineStep s t) (k : LineStep t u) : LineStep s u :=
  ⟨k.clock.trans h.clock, k.mode.trans h.mode, k.cal.trans h.cal, k.table.trans h.table,
    k.zones.trans h.zones, k.doors.trans h.doors, k.pay.trans h.pay, k.bells.trans h.bells,
    k.fire.trans h.fire⟩

theorem LinkOnly.lineStep {s t : State} (h : LinkOnly s t) : LineStep s t :=
  ⟨h.clock, h.mode, h.cal, h.table, h.zones, h.doors, h.pay, h.bells, h.fire⟩

theorem modLine_lineStep (l : LineNo) (f : Line → Line) (s : State) : LineStep s (modLine l f s) :=
  { LineStep.refl s with }

theorem lineAlive_step (l : LineNo) (k : FrameKind) (s : State) : LineStep s (lineAlive l k s) := by
  unfold lineAlive
  dsimp only
  split
  · exact modLine_lineStep l _ s
  · exact (modLine_lineStep l _ s).trans (report_linkOnly _ _).lineStep

theorem lineTamper_step (l : LineNo) (k : FrameKind) (s : State) : LineStep s (lineTamper l k s) := by
  unfold lineTamper
  split
  · exact .refl s
  · exact (modLine_lineStep l _ s).trans (report_linkOnly _ _).lineStep

theorem lineAlive_line (l j : LineNo) (k : FrameKind) (s : State) :
    (lineAlive l k s).lines[j] =
      if j = l then { s.lines[j] with online := true, timer := some 96 } else s.lines[j] := by
  have hlines : (lineAlive l k s).lines =
      (modLine l (fun e => { e with online := true, timer := some 96 }) s).lines := by
    unfold lineAlive
    dsimp only
    split
    · rfl
    · exact (report_linkOnly _ _).lines
  rw [hlines, modLine_line]

theorem lineTamper_line (l j : LineNo) (k : FrameKind) (s : State) :
    (lineTamper l k s).lines[j] =
      if j = l then { s.lines[j] with tamper := decide (k = .tamper) } else s.lines[j] := by
  by_cases hsame : s.lines[l].tamper = decide (k = .tamper)
  · have hself : lineTamper l k s = s := if_pos hsame
    rw [hself]
    by_cases hj : j = l
    · subst hj
      rw [if_pos rfl]
      exact congrArg (fun b => ({ s.lines[j] with tamper := b } : Line)) hsame
    · rw [if_neg hj]
  · have hlines : (lineTamper l k s).lines =
        (modLine l (fun e => { e with tamper := decide (k = .tamper) }) s).lines := by
      have hkind : (k == .tamper) = decide (k = .tamper) := by cases k <;> rfl
      rw [lineTamper, if_neg hsame, (report_linkOnly _ _).lines, hkind]
    rw [hlines, modLine_line]

/-- Settles O46: the arms of `frameEnds` and `lineEnds`. -/
theorem framesSuperviseTheLine : Obligations.FramesSuperviseTheLine := by
  intro l bytes framing at_ s
  refine ⟨fun h => congrArg Host.Outcome.next (if_pos h), fun h hbad => ?_, fun k h hk => ?_,
    fun hon htimer => congrArg Host.Outcome.next (if_pos ⟨hon, htimer⟩), fun hnot => ?_⟩
  · rw [exec_frameEnd, frameEnds, if_neg h, hbad]
    rfl
  · have halive := lineAlive_step l k s
    have htamper := lineTamper_step l k (lineAlive l k s)
    have hline : ∀ j : LineNo, (lineTamper l k (lineAlive l k s)).lines[j] =
        if j = l then { s.lines[j] with online := true, timer := some 96, tamper := decide (k = .tamper) }
        else s.lines[j] := fun j => by
      rw [lineTamper_line, lineAlive_line]
      split <;> rfl
    have htold : lineTamper l k (lineAlive l k s) =
        let alive := modLine l (fun e => { e with online := true, timer := some 96 }) s
        let up := if s.lines[l].online = true then alive else report (.readerOnline l k) alive
        if s.lines[l].tamper = decide (k = .tamper) then up
          else report (.readerTamper l (k == .tamper))
            (modLine l (fun e => { e with tamper := k == .tamper }) up) := by
      have hflag : (lineAlive l k s).lines[l].tamper = s.lines[l].tamper := by
        rw [lineAlive_line, if_pos rfl]
      rw [lineTamper, hflag]
      rfl
    have hstep := halive.trans htamper
    rw [exec_frameEnd, frameEnds, if_neg h, hk]
    dsimp only
    dsimp only at htold
    generalize lineTamper l k (lineAlive l k s) = u at hline hstep htold ⊢
    refine ⟨_, rfl, ?_, fun l' hl => ?_, ?_, ?_⟩
    · by_cases hp : k = .present
      · rw [if_pos hp, if_pos hp, modLine_same, hline, if_pos rfl]
      · rw [if_neg hp, if_neg hp, hline, if_pos rfl]
    · have hother := (hline l').trans (if_neg hl)
      split
      · rw [modLine_other l l' (Ne.symm hl), hother]
      · exact hother
    · rw [← htold]
      split <;> exact ⟨rfl, rfl, rfl⟩
    · have hlast : LineStep s (if k = .present then
          modLine l (fun e => { e with waiting := e.waiting ++ [framePresentation bytes at_] }) u else u) := by
        split
        · exact hstep.trans (modLine_lineStep l _ u)
        · exact hstep
      exact ⟨hlast.clock, hlast.mode, hlast.cal, hlast.table, hlast.zones, hlast.doors, hlast.pay,
        hlast.bells, hlast.fire⟩
  · refine congrArg Host.Outcome.next (if_neg ?_)
    rintro ⟨hon, htimer⟩
    rcases hnot with hoff | hne
    · rw [hoff] at hon
      cases hon
    · exact hne htimer

/-! ### Bells (R142 to R148) -/

theorem exec_bellEntryReached (s : State) : exec .bellEntryReached s = .next (firstEntry s) := rfl

theorem exec_soundingEnd (c : CircuitNo) (s : State) :
    exec (.soundingEnd c) s = .next (modCircuit c Circuit.ended s) := rfl

theorem modCircuit_congr {c : CircuitNo} {f g : Circuit → Circuit} {s : State}
    (h : f s.bells.circuits[c] = g s.bells.circuits[c]) : modCircuit c f s = modCircuit c g s := by
  unfold modCircuit
  rw [h]

theorem modCircuit_eq_self {c : CircuitNo} {f : Circuit → Circuit} {s : State}
    (h : f s.bells.circuits[c] = s.bells.circuits[c]) : modCircuit c f s = s := by
  unfold modCircuit
  rw [h]
  have hset : s.bells.circuits.set c.val s.bells.circuits[c] = s.bells.circuits := Vector.set_getElem_self _
  rw [hset]

/-- The output of a sounding with `e` beats elapsed (R144). -/
theorem circuitOutput_sounding {s : State} {c : CircuitNo} (h : s.regs.run ≠ .clearing) {p : Pattern}
    {n e : Nat} (hc : s.bells.circuits[c] = .sounding p n (n - e)) :
    circuitOutput s c = true ↔ e < n ∧ (p = .steady ∨ e / 16 % 2 = 0) := by
  have hleft : n - e ≠ 0 ↔ e < n := by omega
  have helapsed : e < n → n - (n - e) = e := fun _ => by omega
  have hrun : (s.regs.run != .clearing) = true := bne_iff_ne.2 h
  rw [circuitOutput, hrun, hc]
  cases p with
  | steady => simp [hleft]
  | pulsed | triple =>
    simp only [Bool.true_and, Bool.and_eq_true, bne_iff_ne, hleft, beq_iff_eq, reduceCtorEq, false_or]
    exact and_congr_right fun hlt => by rw [helapsed hlt]

/-- The output of an EVACUATE circuit at a place of its cycle (R148). -/
theorem circuitOutput_evacuate {s : State} {c : CircuitNo} (h : s.regs.run ≠ .clearing) {p : Nat}
    (hc : s.bells.circuits[c] = .evacuate p) :
    circuitOutput s c = true ↔ p < 8 ∨ (16 ≤ p ∧ p < 24) ∨ (32 ≤ p ∧ p < 40) := by
  have hrun : (s.regs.run != .clearing) = true := bne_iff_ne.2 h
  rw [circuitOutput, hrun, hc]
  simp only [Bool.true_and, Bool.and_eq_true, decide_eq_true_eq, beq_iff_eq]
  omega

/-- Settles O55: the list, the soundings' ends, and the outputs by `circuitOutput_sounding` and
`circuitOutput_evacuate`. -/
theorem bellEntriesSound : Obligations.BellEntriesSound := by
  intro s c
  refine ⟨fun hnone => ?_, ?_, fun p total hc => ?_, fun hnot => ?_, fun hsilent => ?_,
    fun hrun e => ⟨fun p n hc => ?_, ?_⟩⟩
  · rw [exec_bellEntryReached, firstEntry, hnone]
  · intro day e rest hdue rings beats
    have hfirst : firstEntry s = reachEntry day e { s with bells := { s.bells with due := rest } } := by
      rw [firstEntry, hdue]
    have hrings : (bellsSound { s with bells := { s.bells with due := rest } } &&
        entryOnDay s.cal day e) = true ↔ rings := by
      simp only [bellsSound, Bool.and_eq_true, Bool.not_eq_true', and_assoc, rings]
      exact Iff.rfl
    rw [exec_bellEntryReached, hfirst]
    refine ⟨fun hno => congrArg Host.Outcome.next (if_neg fun h => hno (hrings.1 h)), fun hyes =>
      ⟨(soundEntry e { s with bells := { s.bells with due := rest } }).bells.circuits, ?_, fun k => ?_⟩⟩
    · refine congrArg Host.Outcome.next ((if_pos (hrings.2 hyes)).trans ?_)
      exact soundEntry_eq e { s with bells := { s.bells with due := rest } }
    · refine (soundEntry_circuit e { s with bells := { s.bells with due := rest } } k).trans ?_
      dsimp only
      by_cases hmask : e.circuits.getLsbD k.val = true
      · rw [if_pos hmask]
        by_cases hevac : s.bells.circuits[k].isEvac = true
        · rw [sound_evac _ _ hevac, if_neg fun h => by rw [h.2] at hevac; cases hevac]
        · have hoff : s.bells.circuits[k].isEvac = false := by simpa using hevac
          rw [sound_eq e hoff, if_pos ⟨hmask, hoff⟩]
          rfl
      · rw [if_neg hmask, if_neg fun h => hmask h.1]
  · rw [exec_soundingEnd]
    exact congrArg Host.Outcome.next (modCircuit_congr (by rw [hc]; rfl))
  · rw [exec_soundingEnd]
    refine congrArg Host.Outcome.next (modCircuit_eq_self ?_)
    cases hc : s.bells.circuits[c] with
    | idle | evacuate => rfl
    | sounding p total left =>
      refine if_neg ?_
      rintro rfl
      exact hnot p total hc
  · unfold circuitOutput
    rcases hsilent with h | h
    · rw [h]
      rfl
    · rw [h, Bool.and_false]
  · exact circuitOutput_sounding hrun (hc.trans (Circuit.beat_iterate_sounding p n e))
  · intro hc p
    exact circuitOutput_evacuate hrun (hc.trans (Circuit.beat_iterate_evacuate e))

/-! ### The muster list (R157, R158) -/

theorem exec_musterWriteDone (s : State) : exec .musterWriteDone s = .next (finishMuster s) := rfl

/-- The muster entry of a worker. -/
def musterEntry (e : Nat × Worker) : MusterEntry :=
  ⟨e.1, e.2.location, e.2.interval.isSome, e.2.muster, e.2.badge⟩

theorem mem_insideZones {z : ZoneNo} : z ∈ insideZones ↔ z ≠ 0 := by decide +revert

theorem musterSnapshot_eq (s : State) : musterSnapshot s =
    insideZones.flatMap fun z => (s.table.workers.filter fun e => e.2.location == z).map musterEntry := by
  unfold musterSnapshot
  refine List.flatMap_congr fun z _ => List.map_congr_left fun e he => ?_
  rw [musterEntry, eq_of_beq (List.mem_filter.1 he).2]

theorem mem_musterSnapshot {s : State} {m : MusterEntry} :
    m ∈ musterSnapshot s ↔ ∃ e ∈ s.table.workers, e.2.location ≠ 0 ∧ m = musterEntry e := by
  rw [musterSnapshot_eq]
  simp only [List.mem_flatMap, mem_insideZones, List.mem_map, List.mem_filter, beq_iff_eq]
  constructor
  · rintro ⟨z, hz, e, ⟨he, rfl⟩, rfl⟩
    exact ⟨e, he, hz, rfl⟩
  · rintro ⟨e, he, hz, rfl⟩
    exact ⟨_, hz, e, ⟨he, rfl⟩, rfl⟩

/-- The snapshot is by zone, and then by slot. -/
theorem musterSnapshot_sorted {s : State} (h : s.table.workers.Pairwise (fun a b => a.1 < b.1)) :
    (musterSnapshot s).Pairwise fun a b => a.zone < b.zone ∨ (a.zone = b.zone ∧ a.slot < b.slot) := by
  rw [musterSnapshot_eq, List.pairwise_flatMap]
  refine ⟨fun z _ => ?_, ?_⟩
  · rw [List.pairwise_map]
    refine (h.filter _).imp_of_mem fun {a b} ha hb hab => .inr ⟨?_, hab⟩
    exact (eq_of_beq (List.mem_filter.1 ha).2).trans (eq_of_beq (List.mem_filter.1 hb).2).symm
  · have hzones : insideZones.Pairwise (· < ·) := by decide
    refine hzones.imp fun {y z} hyz a ha b hb => .inl ?_
    obtain ⟨x, hx, rfl⟩ := List.mem_map.1 ha
    obtain ⟨x', hx', rfl⟩ := List.mem_map.1 hb
    have hy : x.2.location = y := eq_of_beq (List.mem_filter.1 hx).2
    have hz : x'.2.location = z := eq_of_beq (List.mem_filter.1 hx').2
    simpa only [musterEntry, hy, hz] using hyz

theorem writeBytes_append (base : Word) (b c : List Byte) : ∀ (m : Memory) (off : Nat),
    writeBytes m base off (b ++ c) = writeBytes (writeBytes m base off b) base (off + b.length) c := by
  induction b with
  | nil => intro m off; rfl
  | cons x rest ih =>
    intro m off
    rw [List.cons_append, writeBytes, ih, writeBytes, List.length_cons, Nat.add_right_comm, Nat.add_assoc]

theorem musterEntry_bytes_length (e : MusterEntry) : e.bytes.length = 8 := rfl

/-- With no error to come the entries are written one behind the other. -/
theorem writeMuster_nil (area : Word) : ∀ (l : List MusterEntry) (i : Nat) {s : State},
    s.linkAnswers = [] → writeMuster area i l s =
      (i + l.length, true, { s with ram := writeBytes s.ram area (16 + 8 * i) (l.flatMap MusterEntry.bytes) })
  | [], _, _, _ => rfl
  | e :: rest, i, s, h => by
    have ih := writeMuster_nil area rest (i + 1)
      (s := { s with ram := writeBytes s.ram area (16 + 8 * i) e.bytes }) h
    rw [writeMuster, linkWrite_nil h]
    refine ih.trans ?_
    rw [List.flatMap_cons, writeBytes_append, musterEntry_bytes_length, List.length_cons,
      show 16 + 8 * (i + 1) = 16 + 8 * i + 8 by omega, show i + 1 + rest.length = i + (rest.length + 1) by omega]

/-- Settles O58: the snapshot, the start of a write, and its end. -/
theorem musterListIsWrittenWhole : Obligations.MusterListIsWrittenWhole := by
  refine ⟨fun s => ⟨fun m hm => mem_musterSnapshot.1 hm,
    fun e he hz => mem_musterSnapshot.2 ⟨e, he, hz, rfl⟩, musterSnapshot_sorted⟩, fun s su hsu => ?_⟩
  have hstart : ∀ u, startMuster s = u → exec .musterWriteStart s = .next u := fun u h =>
    congrArg Host.Outcome.next h
  refine ⟨fun hnot => hstart _ ?_, fun hp hr hm harea hcap => hstart _ ?_, fun hp hr hm hnone => hstart _ ?_,
    fun hnot => ?_, fun m hr hm ha => ?_⟩
  · rw [startMuster, hsu]
    refine if_neg ?_
    rintro ⟨hp, hr, hm⟩
    rcases hnot with h | h | h
    · rw [h] at hp
      cases hp
    · exact h hr
    · rw [hm] at h
      cases h
  · rw [startMuster, hsu]
    refine (if_pos ⟨hp, hr, hm⟩).trans (if_neg ?_)
    rintro (h | h)
    · exact harea h
    · exact hcap h
  · rw [startMuster, hsu]
    exact (if_pos ⟨hp, hr, hm⟩).trans (if_pos hnone)
  · rw [exec_musterWriteDone]
    refine congrArg Host.Outcome.next ?_
    unfold finishMuster
    rcases hnot with h | h
    · rw [h]
    · split
      · exact if_neg h
      · rfl
  · rw [exec_musterWriteDone]
    refine congrArg Host.Outcome.next ?_
    rw [finishMuster, hm]
    dsimp only
    rw [if_pos hr, writeMuster_nil _ _ _ ha]
    dsimp only
    rw [linkWrite_nil (by exact ha)]

end Sys2Proof.Machine
end

section
/-! CERTIFICATE. What the punch logic makes of a punch, in the words of the statements (6.1), and the
commands of one door: contact changes, REX presses and the two expiries (5.2, 5.4 to 5.6). -/

namespace Sys2Proof.Machine

/-! ### Punches (R104 to R107) -/

theorem openLimit_eq {s : State} {su : Setup} (h : s.link.setup = some su) : openLimit s = su.openLimit := by
  rw [openLimit, h]

/-- A clock-in, in the words of the statements. -/
theorem clockIn_eq (s : State) (su : Setup) (t : Nat) (w : Worker) :
    clockIn s.cal s.pay su.openLimit t w =
      (clockedIn s su t w, openedAt s su t w, decide (w.lastKey ≠ some (keyAt s t w))) := by
  have hkey : keyOf (payRule s.pay w.rule)
      (resolveShift s.cal w.assignment (payRule s.pay w.rule).admitMin t) t = keyAt s t w := by
    unfold keyOf keyAt
    dsimp only
    cases resolveShift s.cal w.assignment (payRule s.pay w.rule).admitMin t <;> rfl
  have hopened : (clockIn s.cal s.pay su.openLimit t w).2.1 = openedAt s su t w := by
    unfold clockIn openedAt deadlineOf
    dsimp only
    cases resolveShift s.cal w.assignment (payRule s.pay w.rule).admitMin t <;> rfl
  have hrest : clockIn s.cal s.pay su.openLimit t w =
      ({ w with
        interval := some (clockIn s.cal s.pay su.openLimit t w).2.1
        lastKey := some (keyAt s t w)
        cday := if w.lastKey ≠ some (keyAt s t w) then 0 else w.cday
        breakTaken := if w.lastKey ≠ some (keyAt s t w) then false else w.breakTaken
        lastEOut := if w.lastKey ≠ some (keyAt s t w) then 0 else w.lastEOut },
      (clockIn s.cal s.pay su.openLimit t w).2.1, decide (w.lastKey ≠ some (keyAt s t w))) := by
    rw [← hkey]
    unfold clockIn
    simp only [decide_eq_true_eq]
  rw [hrest, hopened]
  unfold clockedIn
  by_cases h : w.lastKey = some (keyAt s t w) <;> simp [h]

/-- A punch applied, in the words of the statements. -/
theorem punchApplies_applyPunch {su : Setup} {kind : PunchKind} {info : PassageInfo} {w : Worker}
    {moved : State} {ends : RecordBody → State → Prop} (hw : workerAt moved info.slot = some w)
    (hsu : moved.link.setup = some su)
    (hends : ends (applyPunch kind info moved).2 (applyPunch kind info moved).1) :
    PunchApplies su kind info w moved ends := by
  refine ⟨?_, ?_, ?_, ?_, ?_⟩
  · rintro rfl
    exact hends
  · rintro rfl
    exact hends
  · rintro rfl
    exact hends
  · rintro rfl -
    have happly : applyPunch .punchIn info moved =
        (setWorker info.slot (clockedIn moved su info.time.sec w) moved, punchedIn moved su w info) := by
      unfold applyPunch
      rw [hw, openLimit_eq hsu]
      dsimp only
      rw [clockIn_eq]
      rfl
    rw [happly] at hends
    exact hends
  · rintro i rfl hi
    have happly : applyPunch .punchOut info moved =
        (setWorker info.slot (closing moved.cal moved.pay w i (some info.time.sec)).1 moved,
          .punchOut info i.tIn i.captured (closing moved.cal moved.pay w i (some info.time.sec)).2) := by
      unfold applyPunch
      rw [hw]
      dsimp only
      rw [hi]
    rw [happly] at hends
    exact hends

theorem PunchApplies.imp {su : Setup} {kind : PunchKind} {info : PassageInfo} {w : Worker}
    {moved : State} {ends ends' : RecordBody → State → Prop} (h : PunchApplies su kind info w moved ends)
    (himp : ∀ b t, ends b t → ends' b t) : PunchApplies su kind info w moved ends' := by
  obtain ⟨h1, h2, h3, h4, h5⟩ := h
  exact ⟨fun e => himp _ _ (h1 e), fun e => himp _ _ (h2 e), fun e => himp _ _ (h3 e),
    fun e hi => himp _ _ (h4 e hi), fun i e hi => himp _ _ (h5 i e hi)⟩

theorem applyPunch_regs (kind : PunchKind) (info : PassageInfo) (s : State) :
    (applyPunch kind info s).1.regs = s.regs := by
  unfold applyPunch
  cases kind with
  | punchIn =>
    dsimp only
    split <;> rfl
  | punchOut =>
    dsimp only
    split
    · split <;> rfl
    · rfl
  | reentry | strayOut | passage => rfl

/-! ### Moves -/

theorem movedTo_regs_link (slot : Nat) (w : Worker) (z : ZoneNo) (s : State) :
    (movedTo slot w z s).regs = s.regs ∧ (movedTo slot w z s).link = s.link := by
  unfold movedTo
  split
  · exact ⟨rfl, rfl⟩
  · exact ⟨by simp, by simp⟩

theorem workerAt_modZone (z : ZoneNo) (f : Zone → Zone) (s : State) (slot : Nat) :
    workerAt (modZone z f s) slot = workerAt s slot := workerAt_congr (by simp) slot

theorem workerAt_movedTo {slot : Nat} {w : Worker} {s : State} (hw : workerAt s slot = some w) (z : ZoneNo) :
    workerAt (movedTo slot w z s) slot = some { w with location := z } := by
  unfold movedTo
  split
  · next h =>
    rw [hw, ← h]
  · rw [workerAt_modZone, workerAt_modZone, workerAt_setWorker_same]

theorem gatesRun_congr {s t : State} (h : t.regs = s.regs) : gatesRun t = gatesRun s := by
  unfold gatesRun
  rw [h]

/-! ### The ends of a grant -/

/-- A grant that a door has let go passes, in the words of the statements. -/
theorem passGrant_eq {s : State} {d : DoorNo} {g : Grant} {w : Worker} {su : Setup}
    (hw : workerAt s g.slot = some w) (hsu : s.link.setup = some su) (hg : gatesRun s = true)
    {ends : State → Prop} (hends : ends (passGrant d g s)) :
    PunchApplies su g.kind
      ⟨g.slot, w.badge, w.issue, some d, g.line, g.inward, w.location, g.target, g.time, g.apbSoft⟩
      { w with location := g.target }
      (modZone g.target (fun z => { z with reserved := z.reserved - 1 }) (movedTo g.slot w g.target s))
      fun body t => ends (grantEnded g.slot (handOver true s.clock.now body t)) := by
  obtain ⟨hregs, hlink⟩ := movedTo_regs_link g.slot w g.target s
  refine punchApplies_applyPunch ?_ ?_ ?_
  · rw [workerAt_modZone]
    exact workerAt_movedTo hw g.target
  · rw [modZone_link, hlink, hsu]
  · have hinfo : passageInfo s g.slot (some d) g.line g.inward g.target g.time g.apbSoft =
        ⟨g.slot, w.badge, w.issue, some d, g.line, g.inward, w.location, g.target, g.time, g.apbSoft⟩ := by
      rw [passageInfo, hw]
    have hpass : passGrant d g s = afterGrant g.slot (handOver true s.clock.now
        (applyPunch g.kind (passageInfo s g.slot (some d) g.line g.inward g.target g.time g.apbSoft)
          (dropReservation g.target (moveWorker g.slot g.target s))).2
        (applyPunch g.kind (passageInfo s g.slot (some d) g.line g.inward g.target g.time g.apbSoft)
          (dropReservation g.target (moveWorker g.slot g.target s))).1) := rfl
    rw [hpass, hinfo, moveWorker_eq _ hw, afterGrant_eq] at hends
    · exact hends
    · rw [(handOver_linkOnly _ _ _ _).gatesRun]
      exact (gatesRun_congr ((applyPunch_regs _ _ _).trans ((modZone_regs _ _ _).trans hregs))).trans hg

/-- A door lets its grant go and the grant lapses, in the words of the statements. -/
theorem lapseGrant_eq {s : State} {d : DoorNo} {g : Grant} (hd : s.doors[d].grant = some g)
    (hg : gatesRun s = true) (cause : LapseCause) :
    lapseGrant d cause s = grantEnded g.slot (handOver true s.clock.now
      (.lapsed g.slot ((workerAt s g.slot).elim 0 (·.badge)) d g.line g.inward g.kind cause g.time)
      (modZone g.target (fun z => { z with reserved := z.reserved - 1 })
        (modDoor d (fun e => { e with grant := none }) s))) := by
  unfold lapseGrant
  rw [hd]
  refine afterGrant_eq g.slot ?_
  rw [(handOver_linkOnly _ _ _ _).gatesRun]
  exact (gatesRun_congr ((modZone_regs _ _ _).trans (modDoor_regs _ _ _))).trans hg

/-! ### Contact events (R90 to R92) -/

theorem exec_contactChange (d : DoorNo) (closed : Bool) (s : State) :
    exec (.contactChange d closed) s = .next (changeCircuit d closed s) := rfl

/-- The door with its contact followed. -/
def followed (g : Door → Door) (c : Contact) (e : Door) : Door := { g e with contact := c }

section ContactEvent

variable {d : DoorNo} {c : Contact} {s : State} {g : Door → Door}

/-- A contact event that the door follows alone. -/
theorem contactEvent_follows
    (h : (s.doors[d].state = .inactive ∨ s.doors[d].state = .free ∨ s.doors[d].state = .egress ∨
        s.doors[d].state = .fault) ∨
      (c = .open_ ∧ (s.doors[d].state = .open_ ∨ s.doors[d].state = .held ∨ s.doors[d].state = .forced)) ∨
      (c = .closed ∧ (s.doors[d].state = .secure ∨ s.doors[d].state = .released))) :
    contactEvent d c s = modDoor d (fun e => { e with contact := c }) s := by
  unfold contactEvent
  dsimp only
  rcases h with (hs | hs | hs | hs) | ⟨rfl, hs | hs | hs⟩ | ⟨rfl, hs | hs⟩ <;> rw [hs] <;> cases c <;> rfl

theorem contactEvent_forced (hs : s.doors[d].state = .secure) :
    contactEvent d .open_ s = raise .doorAlarm (report (.doorForced d s.doors[d].entry.mode) (modDoor d
      (fun e => { entered s .forced .locked { e with contact := .open_ } with
        alarmStart := some s.clock.now }) s)) := by
  unfold contactEvent
  dsimp only
  rw [hs]
  dsimp only
  rw [modDoor_modDoor]
  simp only [enter_eq_entered]
  rfl

theorem contactEvent_closes (hs : s.doors[d].state = .open_) :
    contactEvent d .closed s =
      modDoor d (fun e => entered s .secure .locked { e with contact := .closed }) s := by
  unfold contactEvent
  dsimp only
  rw [hs]
  dsimp only
  rw [modDoor_modDoor]
  simp only [enter_eq_entered]
  rfl

theorem contactEvent_restores {alarm : Alarm} (hs : (s.doors[d].state = .held ∧ alarm = .held) ∨
    (s.doors[d].state = .forced ∧ alarm = .forced)) :
    contactEvent d .closed s = report (.doorRestored d alarm (s.doors[d].alarmStart.getD s.clock.now))
      (modDoor d (fun e => entered s .secure .locked { e with contact := .closed }) s) := by
  have hrestore : restore d alarm (modDoor d (fun e => { e with contact := .closed }) s) =
      report (.doorRestored d alarm (s.doors[d].alarmStart.getD s.clock.now))
        (modDoor d (fun e => entered s .secure .locked { e with contact := .closed }) s) := by
    unfold restore
    rw [modDoor_same, modDoor_modDoor]
    simp only [modDoor_mode, modDoor_clock, enter_eq_entered]
    rfl
  rw [← hrestore]
  unfold contactEvent
  dsimp only
  rcases hs with ⟨hs, rfl⟩ | ⟨hs, rfl⟩ <;> rw [hs]

/-- A RELEASED door that opens. -/
def opened (d : DoorNo) (g : Door → Door) (s : State) : State :=
  modDoor d (fun e => { entered s .open_ .locked (followed g .open_ e) with
    grant := none
    held := some (e.entry.heldLimit * 16)
    openStart := some s.clock.now }) s

theorem contactEvent_opens (hs : s.doors[d].state = .released) :
    contactEvent d .open_ s = s.doors[d].grant.elim (opened d id s) fun g => passGrant d g (opened d id s) := by
  have hopened : opened d id s = modDoor d (fun e =>
      { enterOpen s.mode.rehearsal s.clock.now e with grant := none })
      (modDoor d (fun e => { e with contact := .open_ }) s) := by
    rw [modDoor_modDoor]
    simp only [opened, enterOpen, enter_eq_entered]
    rfl
  rw [hopened]
  unfold contactEvent
  dsimp only
  rw [hs]
  dsimp only
  cases s.doors[d].grant <;> rfl

end ContactEvent

/-- A contact event, in the words of the statements, at a door whose accepted level `g` may have moved. -/
theorem contactActs_contactEvent {g : Door → Door} (hg : ∀ e, ∃ b : Bool, g e = { e with circuit := b })
    (d : DoorNo) (c : Contact) (s : State) {ends : State → Prop}
    (hends : ends (contactEvent d c (modDoor d g s))) :
    ContactActs d c (followed g c) s ends := by
  have hdoor : (modDoor d g s).doors[d] = g s.doors[d] := modDoor_same d g s
  have hentry : ∀ e, (g e).entry = e.entry := fun e => by
    obtain ⟨b, hb⟩ := hg e
    rw [hb]
  have hsame : ∀ e, (g e).state = e.state ∧ (g e).grant = e.grant ∧ (g e).alarmStart = e.alarmStart :=
    fun e => by
      obtain ⟨b, hb⟩ := hg e
      rw [hb]
      exact ⟨rfl, rfl, rfl⟩
  obtain ⟨hstate, hgrant, halarm⟩ := hsame s.doors[d]
  rw [← hdoor] at hstate hgrant halarm
  have hfollows := contactEvent_follows (d := d) (c := c) (s := modDoor d g s)
  rw [hstate, modDoor_modDoor] at hfollows
  refine ⟨fun hs => ?_, fun hc hs => ?_, fun hc hs => ?_, fun hc hs => ?_, fun hc hs => ?_,
    fun alarm hc hs => ?_, fun hc hs => ?_⟩
  · rw [hfollows (.inl hs)] at hends
    exact hends
  · rw [hfollows (.inr (.inl ⟨hc, hs⟩))] at hends
    exact hends
  · rw [hfollows (.inr (.inr ⟨hc, hs⟩))] at hends
    exact hends
  · subst hc
    rw [contactEvent_forced (hstate.trans hs), modDoor_modDoor, hdoor, hentry] at hends
    exact hends
  · subst hc
    rw [contactEvent_closes (hstate.trans hs), modDoor_modDoor] at hends
    exact hends
  · subst hc
    rw [contactEvent_restores (alarm := alarm) (by rw [hstate]; exact hs), modDoor_modDoor, halarm] at hends
    exact hends
  · subst hc
    intro opens
    have hopened : opened d id (modDoor d g s) = opens := by
      unfold opened
      rw [modDoor_modDoor]
      refine modDoor_congr ?_
      simp only [hentry]
      rfl
    rw [contactEvent_opens (hstate.trans hs), hgrant, hopened] at hends
    refine ⟨fun hnone => ?_, fun gr w su hgr hw hsu hgates => ?_⟩
    · rw [hnone] at hends
      exact hends
    · rw [hgr] at hends
      exact passGrant_eq (s := opens) hw hsu hgates hends

/-- Settles O49: nothing to follow, or `contactActs_contactEvent`. -/
theorem contactChangesActByDoorState : Obligations.ContactChangesActByDoorState := by
  intro d closed s e c
  refine ⟨fun h => ?_, fun hr hc => ?_⟩
  · rw [exec_contactChange]
    refine congrArg Host.Outcome.next (if_pos ?_)
    rcases h with hr | hc
    · rw [hr]
      rfl
    · exact Bool.or_eq_true_iff.2 (.inr (beq_iff_eq.2 hc))
  · refine contactActs_contactEvent (g := fun e => { e with circuit := closed })
      (fun e => ⟨closed, rfl⟩) d c s ?_
    rw [exec_contactChange]
    refine congrArg Host.Outcome.next (if_neg ?_)
    rw [hr]
    exact fun h => hc (beq_iff_eq.1 h)

/-! ### REX presses (R84, R94) -/

theorem exec_rexPress (d : DoorNo) (s : State) :
    exec (.rexPress d) s = .next (if s.mode.rehearsal then s else pressRex d s) := rfl

/-- A REX window that starts, in the words of the statements. -/
theorem startWindow_eq (d : DoorNo) (s : State) : modDoor d (startWindow s.mode.rehearsal) s =
    modDoor d (fun e => commanded s .released { e with release := some (e.entry.release * 16) }) s := by
  simp only [← drive_eq_commanded]
  rfl

/-- A release, in the words of the statements. -/
theorem releaseFor_eq (d : DoorNo) (s : State) :
    modDoor d (releaseFor s.mode.rehearsal s.doors[d].entry.release) s =
      modDoor d (fun e => { entered s .released .released e with release := some (e.entry.release * 16) }) s := by
  refine modDoor_congr ?_
  simp only [releaseFor, enter_eq_entered]
  rfl

section PressRex

variable {d : DoorNo} {s : State} (hclear : s.regs.run ≠ .clearing)
  (hrex : s.doors[d].entry.rexEnable = true)

include hclear hrex

theorem press_taken : ¬ (s.regs.run = .clearing ∨ s.doors[d].entry.rexEnable = false) := by
  rintro (h | h)
  · exact hclear h
  · rw [hrex] at h
    cases h

theorem pressRex_inactive (hs : s.doors[d].state = .inactive) :
    pressRex d s = modDoor d (startWindow s.mode.rehearsal) s := by
  unfold pressRex
  dsimp only
  rw [if_neg (press_taken hclear hrex), hs]

theorem pressRex_secure (hs : s.doors[d].state = .secure) :
    pressRex d s = modDoor d (releaseFor s.mode.rehearsal s.doors[d].entry.release) s := by
  unfold pressRex
  dsimp only
  rw [if_neg (press_taken hclear hrex), hs]

theorem pressRex_released (hs : s.doors[d].state = .released) :
    pressRex d s = modDoor d (fun e => { e with release := some (e.entry.release * 16) }) s := by
  unfold pressRex
  dsimp only
  rw [if_neg (press_taken hclear hrex), hs]

theorem pressRex_fault (hs : s.doors[d].state = .fault) :
    pressRex d s = if checksDoor s d then
      endRequest .stillFaulted none none (modDoor d (startWindow s.mode.rehearsal) s)
      else modDoor d (startWindow s.mode.rehearsal) s := by
  unfold pressRex
  dsimp only
  rw [if_neg (press_taken hclear hrex), hs]

theorem pressRex_stands (hs : s.doors[d].state = .open_ ∨ s.doors[d].state = .held ∨
    s.doors[d].state = .forced ∨ s.doors[d].state = .free ∨ s.doors[d].state = .egress) :
    pressRex d s = s := by
  unfold pressRex
  dsimp only
  rw [if_neg (press_taken hclear hrex)]
  rcases hs with hs | hs | hs | hs | hs <;> rw [hs]

/-- A press, in the words of the statements. -/
theorem rexActs_pressRex {ends : State → Prop} (hends : ends (pressRex d s)) : RexActs d s ends := by
  refine ⟨fun hs => ?_, fun hs => ?_, fun hs => ?_, fun hs => ?_⟩
  · rw [pressRex_stands hclear hrex hs] at hends
    exact hends
  · rw [pressRex_secure hclear hrex hs, releaseFor_eq] at hends
    exact hends
  · rw [pressRex_released hclear hrex hs] at hends
    exact hends
  · rw [← startWindow_eq]
    rcases hs with hs | ⟨hs, hcheck⟩
    · rw [pressRex_inactive hclear hrex hs] at hends
      exact hends
    · rw [pressRex_fault hclear hrex hs, hcheck] at hends
      exact hends

end PressRex

/-! ### Expiries (R89, R92, R94) -/

theorem exec_releaseExpiry (d : DoorNo) (s : State) :
    exec (.releaseExpiry d) s = .next (releaseEnds d s) := rfl

theorem exec_heldExpiry (d : DoorNo) (s : State) : exec (.heldExpiry d) s = .next (heldEnds d s) := rfl

/-- A release timer at 0 at a RELEASED door. -/
theorem releaseEnds_released {d : DoorNo} {s : State} (hz : s.doors[d].release = some 0)
    (hs : s.doors[d].state = .released) :
    releaseEnds d s = lapseGrant d .expiry (modDoor d (entered s .secure .locked) s) := by
  have henter : enter s.mode.rehearsal .secure = entered s .secure .locked :=
    funext fun e => enter_eq_entered s .secure e
  unfold releaseEnds
  dsimp only
  rw [if_pos hz, hs, henter]

theorem entered_grant (s : State) (st : DoorState) (want : Relay) (e : Door) :
    (entered s st want e).grant = e.grant := by
  rw [entered, ← drive_eq_commanded, drive_grant]

/-- Settles O50: the press by `rexActs_pressRex`, and the two expiries by the door's state. -/
theorem rexAndTimersMoveTheDoor : Obligations.RexAndTimersMoveTheDoor := by
  intro d s e
  refine ⟨fun h => ?_, fun hr hclear hrex => ⟨?_, fun notify su hs hrun ha hsu hq => ?_⟩, fun hz => ?_, ?_,
    fun h => ?_, fun start hs hz hstart => ?_⟩
  · rw [exec_rexPress]
    refine congrArg Host.Outcome.next ?_
    rcases h with h | h | h
    · exact if_pos h
    · split
      · rfl
      · exact if_pos (.inl h)
    · split
      · rfl
      · exact if_pos (.inr h)
  · refine rexActs_pressRex hclear hrex ?_
    rw [exec_rexPress, hr]
    rfl
  · have hcheck : checksDoor s d = true := by simp [checksDoor, hq]
    have hpress := pressRex_fault hclear hrex hs
    rw [exec_rexPress, hr, ← startWindow_eq]
    refine congrArg Host.Outcome.next (hpress.trans ((if_pos hcheck).trans ?_))
    exact endRequest_returns (s := modDoor d (startWindow s.mode.rehearsal) s)
      (q := ⟨.clearFault d.val, notify, .checking, 0, 0⟩) hrun ha hsu hq _ _ _
  · rw [exec_releaseExpiry]
    exact congrArg Host.Outcome.next (if_neg hz)
  · intro hz secured
    have hsecured : modDoor d (fun e => { e with grant := none }) (modDoor d (entered s .secure .locked) s) =
        secured := modDoor_modDoor _ _ _ _
    have hgrant : (modDoor d (entered s .secure .locked) s).doors[d].grant = e.grant := by
      rw [modDoor_same, entered_grant]
    refine ⟨fun hs hnone => ?_, fun g w hs hg hw hgates => ?_, fun hs => ?_, fun h1 h2 h3 => ?_⟩
    · rw [exec_releaseExpiry, releaseEnds_released hz hs, lapseGrant_none (hgrant.trans hnone), ← hsecured]
      refine congrArg Host.Outcome.next (modDoor_eq_self ?_).symm
      rw [← hgrant.trans hnone]
    · rw [exec_releaseExpiry, releaseEnds_released hz hs,
        lapseGrant_eq (s := modDoor d (entered s .secure .locked) s) (hgrant.trans hg) hgates, hsecured]
      rw [show workerAt (modDoor d (entered s .secure .locked) s) g.slot = some w from hw]
      rfl
    · rw [exec_releaseExpiry]
      refine congrArg Host.Outcome.next ((if_pos hz).trans ?_)
      simp only [← drive_eq_commanded]
      rcases hs with hs | hs <;> rw [hs] <;> rfl
    · rw [exec_releaseExpiry]
      refine congrArg Host.Outcome.next ((if_pos hz).trans ?_)
      cases hs : s.doors[d].state with
      | released => exact absurd hs h1
      | inactive => exact absurd hs h2
      | fault => exact absurd hs h3
      | secure | open_ | held | forced | free | egress => rfl
  · rw [exec_heldExpiry]
    refine congrArg Host.Outcome.next (if_neg ?_)
    rintro ⟨hs, hz⟩
    rcases h with h | h
    · exact h hs
    · exact h hz
  · rw [exec_heldExpiry]
    refine congrArg Host.Outcome.next ((if_pos ⟨hs, hz⟩).trans ?_)
    rw [show s.doors[d].openStart = some start from hstart]
    simp only [enter_eq_entered]
    rfl

end Sys2Proof.Machine
end

section
/-! CERTIFICATE. DOOR_MODE (5.7): the lapse of the door's grant, and the state its new mode requires. -/

namespace Sys2Proof.Machine

/-! ### What a lapse leaves -/

theorem afterGrant_punchStep (slot : Nat) (s : State) : PunchStep s (afterGrant slot s) := by
  unfold afterGrant
  split
  · exact .refl s
  · split
    · exact .refl s
    · split
      · exact actOnDeadline_punchStep slot s
      · exact .refl s

/-- A record in a place reserved for it gives the reservation back. -/
theorem handOver_reserved {s : State} (hrun : s.regs.run ≠ .clearing) (t : Stamp) (b : RecordBody) :
    (handOver true t b s).link.reserved = s.link.reserved - 1 := by
  have hplaced : (placeRecord true t b (placeGap true s)).link.reserved = s.link.reserved - 1 := by
    rw [(placeRecord_places true t b (placeGap true s)).2, (placeGap_places true s).1]
    rfl
  unfold handOver
  rw [if_neg hrun, if_neg (by simp)]
  dsimp only
  split
  · exact (beginWrites_linkStep _).reserved.trans hplaced
  · exact hplaced

/-- `t` differs from `s` in the doors, the zones, the worker records and the link. -/
structure LapseFrame (s t : State) : Prop where
  clock : t.clock = s.clock
  mode : t.mode = s.mode
  cal : t.cal = s.cal
  lines : t.lines = s.lines
  pay : t.pay = s.pay
  bells : t.bells = s.bells
  fire : t.fire = s.fire
  index : t.table.index = s.table.index
  gates : gatesRun t = gatesRun s

theorem LapseFrame.refl (s : State) : LapseFrame s s := ⟨rfl, rfl, rfl, rfl, rfl, rfl, rfl, rfl, rfl⟩

theorem LapseFrame.trans {s t u : State} (h : LapseFrame s t) (k : LapseFrame t u) : LapseFrame s u :=
  ⟨k.clock.trans h.clock, k.mode.trans h.mode, k.cal.trans h.cal, k.lines.trans h.lines,
    k.pay.trans h.pay, k.bells.trans h.bells, k.fire.trans h.fire, k.index.trans h.index,
    k.gates.trans h.gates⟩

theorem PunchStep.lapseFrame {s t : State} (h : PunchStep s t) : LapseFrame s t :=
  ⟨h.clock, h.mode, h.cal, h.lines, h.pay, h.bells, h.fire, h.index, h.gates⟩

theorem modDoor_lapseFrame (d : DoorNo) (f : Door → Door) (s : State) : LapseFrame s (modDoor d f s) :=
  { LapseFrame.refl s with }

theorem modZone_lapseFrame (z : ZoneNo) (f : Zone → Zone) (s : State) : LapseFrame s (modZone z f s) :=
  ⟨by simp, by simp, by simp, by simp, by simp, by simp, by simp, by simp, gatesRun_congr (by simp)⟩

theorem handOver_punchStep (reserved : Bool) (t : Stamp) (b : RecordBody) (s : State) :
    PunchStep s (handOver reserved t b s) :=
  ⟨handOver_stepFrame reserved t b s, (handOver_linkOnly reserved t b s).bells⟩

theorem lapseGrant_frame (d : DoorNo) (cause : LapseCause) (s : State) :
    LapseFrame s (lapseGrant d cause s) := by
  unfold lapseGrant
  split
  · exact .refl s
  · next g _ =>
    have hdrop := (modDoor_lapseFrame d (fun e => { e with grant := none }) s).trans
      (modZone_lapseFrame g.target (fun z => { z with reserved := z.reserved - 1 }) _)
    exact hdrop.trans ((handOver_punchStep _ _ _ _).trans (afterGrant_punchStep _ _)).lapseFrame

theorem lapseGrant_reserved {s : State} (hrun : s.regs.run ≠ .clearing) (d : DoorNo) (cause : LapseCause) :
    (lapseGrant d cause s).link.reserved =
      if s.doors[d].grant.isSome = true then s.link.reserved - 1 else s.link.reserved := by
  unfold lapseGrant
  cases s.doors[d].grant with
  | none => rfl
  | some g =>
    refine (afterGrant_workStep _ _).reserved.trans ?_
    have hbase : (dropReservation g.target (modDoor d (fun e => { e with grant := none }) s)).regs = s.regs :=
      by simp [dropReservation]
    rw [handOver_reserved (by rw [hbase]; exact hrun)]
    simp [dropReservation]

/-! ### DOOR_MODE (R96) -/

theorem exec_doorMode (notify : Bool) (door mode : Nat) (s : State) :
    exec (.doorMode notify door mode) s =
      .next (carryOut (.doorMode door mode) notify (takeDoorMode door mode) s) := rfl

/-- The mode stored at a door, its grant lapsed. -/
def modeStored (d : DoorNo) (m : DoorMode) (s : State) : State :=
  lapseGrant d .mode (modDoor d (fun e => { e with entry := { e.entry with mode := m } }) s)

/-- The states of a door that a new mode `m` sets again. -/
def restsAgain (m : DoorMode) (st : DoorState) : Bool :=
  (st == .secure || st == .released || st == .free) ||
    ((st == .open_ || st == .held || st == .forced) && m == .free)

theorem restsAgain_iff {m : DoorMode} {st : DoorState} : restsAgain m st = true ↔
    (st = .secure ∨ st = .released ∨ st = .free) ∨
      ((st = .open_ ∨ st = .held ∨ st = .forced) ∧ m = .free) := by
  simp [restsAgain, or_assoc]

/-- The door after DOOR_MODE's own act. -/
def modeSet (d : DoorNo) (m : DoorMode) (s : State) : State :=
  if restsAgain m s.doors[d].state then recompute d (modeStored d m s) else modeStored d m s

theorem takeDoorMode_eq {s : State} (d : DoorNo) {mode : Nat} {m : DoorMode}
    (hm : DoorMode.ofCode mode = some m) :
    takeDoorMode d.val mode s =
      endRequest .done (some (bit s.doors[d].grant.isSome)) none (modeSet d m s) := by
  unfold takeDoorMode modeSet
  rw [doorOf_val, hm]
  dsimp only
  refine congrArg _ ?_
  cases hs : s.doors[d].state <;> by_cases hf : m = .free <;> simp [restsAgain, hf, modeStored]

theorem takeDoorMode_range {s : State} {door mode : Nat} (h : 11 < door ∨ 2 < mode) :
    takeDoorMode door mode s = endRequest .range none none s := by
  unfold takeDoorMode
  rcases h with h | h
  · rw [doorOf_eq_none h]
  · have hm : DoorMode.ofCode mode = none := by
      match mode, h with
      | _ + 3, _ => rfl
    rw [hm]
    cases doorOf door <;> rfl

theorem modeSet_withRequest (q : Option Request) (d : DoorNo) (m : DoorMode) (s : State) :
    modeSet d m (withRequest q s) = withRequest q (modeSet d m s) := by
  have hstored : modeStored d m (withRequest q s) = withRequest q (modeStored d m s) :=
    lapseGrant_withRequest q d .mode (modDoor d (fun e => { e with entry := { e.entry with mode := m } }) s)
  have hdoor : (withRequest q s).doors = s.doors := rfl
  unfold modeSet
  rw [hstored, hdoor, recompute_withRequest]
  split <;> rfl

theorem recompute_serve (d : DoorNo) (s : State) : ServeStep s (recompute d s) := by
  rw [recompute_eq_modDoor]
  exact serveStep_of_eq rfl rfl rfl

theorem modeStored_serve {s : State} (h : s.linkAnswers = []) (d : DoorNo) (m : DoorMode) :
    ServeStep s (modeStored d m s) := by
  have hset : ServeStep s (modDoor d (fun e => { e with entry := { e.entry with mode := m } }) s) :=
    serveStep_of_eq rfl rfl rfl
  exact hset.trans (lapseGrant_serve (hset.answers.trans h) d .mode)

theorem modeSet_serve {s : State} (h : s.linkAnswers = []) (d : DoorNo) (m : DoorMode) :
    ServeStep s (modeSet d m s) := by
  have hstored := modeStored_serve h d m
  unfold modeSet
  split
  · exact hstored.trans (recompute_serve d _)
  · exact hstored

theorem modeStored_frame (d : DoorNo) (m : DoorMode) (s : State) : LapseFrame s (modeStored d m s) :=
  (modDoor_lapseFrame d (fun e => { e with entry := { e.entry with mode := m } }) s).trans
    (lapseGrant_frame d .mode _)

theorem modeSet_frame (d : DoorNo) (m : DoorMode) (s : State) : LapseFrame s (modeSet d m s) := by
  unfold modeSet
  split
  · rw [recompute_eq_modDoor]
    exact (modeStored_frame d m s).trans (modDoor_lapseFrame d _ _)
  · exact modeStored_frame d m s

/-- The door that a stored mode leaves. -/
theorem modeStored_door (d : DoorNo) (m : DoorMode) (s : State) :
    (modeStored d m s).doors[d] =
      { s.doors[d] with entry := { s.doors[d].entry with mode := m }, grant := none } := by
  rw [modeStored, (lapseGrant_doorStep d .mode _).door, modDoor_same]
  rfl

theorem modeStored_other {d k : DoorNo} (h : k ≠ d) (m : DoorMode) (s : State) :
    (modeStored d m s).doors[k] = s.doors[k] := by
  rw [modeStored, (lapseGrant_doorStep d .mode _).doors]
  have hset : ∀ (v : Vector Door 12) (x : Door), (v.set d.val x)[k] = v[k] := fun v x =>
    Vector.getElem_set_ne d.isLt k.isLt fun he => h (Fin.ext he.symm)
  rw [hset, modDoor_other d k (Ne.symm h)]

/-- What a new mode makes of a door that rests, in RUNNING, without fire. -/
def restedDoor (s : State) (m : DoorMode) (e : Door) : Door :=
  if m = .free then entered s .free .released e
  else if e.contact = .closed then entered s .secure .locked e
  else { entered s .open_ .locked e with
    held := some (e.entry.heldLimit * 16)
    openStart := some s.clock.now }

theorem recomputedDoor_rested {s : State} {m : DoorMode} {e : Door} (hfire : fireActive s = false)
    (hgates : gatesRun s = true) (hmark : e.mark = false) (hmode : e.entry.mode = m) :
    recomputedDoor s e = restedDoor s m e := by
  have hst : recomputedState s e =
      if m = .free then .free else if e.contact = .closed then .secure else .open_ := by
    rw [recomputedState_of_no_fire hfire, if_pos hgates, restingState, hmark, hmode]
    rfl
  unfold recomputedDoor restedDoor
  rw [hst]
  simp only [enterOpen, enter_eq_entered]
  by_cases hm : m = .free
  · simp [hm, relayOf]
  · by_cases hc : e.contact = .closed <;> simp [hm, hc, relayOf]

theorem recompute_modeStored {s : State} {d : DoorNo} (m : DoorMode) (hlaw : DoorLawful s s.doors[d])
    (hgates : gatesRun s = true) (hs : s.doors[d].state ≠ .egress ∧ s.doors[d].state ≠ .fault ∧
      s.doors[d].state ≠ .inactive) :
    recompute d (modeStored d m s) = modDoor d (restedDoor s m) (modeStored d m s) := by
  obtain ⟨hegress, hfault, hinactive⟩ := hs
  obtain ⟨hfire, -, hmark, -, -⟩ := hlaw
  have hframe := modeStored_frame d m s
  have hdoor := modeStored_door d m s
  rw [recompute_eq_modDoor]
  refine modDoor_congr ?_
  have hcold : fireActive (modeStored d m s) = false := by
    unfold fireActive
    rw [hframe.fire]
    exact Bool.eq_false_iff.2 fun h => hegress (hfire.2 h)
  have hclear : (modeStored d m s).doors[d].mark = false := by
    rw [hdoor]
    refine Bool.eq_false_iff.2 fun h => ?_
    rcases hmark h with h | h | h
    · exact hinactive h
    · exact hegress h
    · exact hfault h
  rw [recomputedDoor_rested (m := m) hcold (hframe.gates.trans hgates) hclear (by rw [hdoor])]
  unfold restedDoor entered commanded
  rw [hframe.mode, hframe.clock]

theorem restedDoor_fields (s : State) (m : DoorMode) (e : Door) :
    (restedDoor s m e).entry = e.entry ∧ (restedDoor s m e).grant = e.grant ∧
    (restedDoor s m e).state =
      if m = .free then .free else if e.contact = .closed then .secure else .open_ := by
  have hentered : ∀ st want, (entered s st want e).entry = e.entry ∧
      (entered s st want e).grant = e.grant ∧ (entered s st want e).state = st := fun st want => by
    rw [entered, ← drive_eq_commanded]
    simp
  unfold restedDoor
  split
  · exact hentered _ _
  · split
    · exact hentered _ _
    · exact hentered .open_ .locked

/-- The stored mode and the lapse, in the words of the statement. -/
theorem modeStored_eq {s : State} (hgates : gatesRun s = true) (d : DoorNo) (m : DoorMode) :
    modeStored d m s =
      let stored := modDoor d (fun e => { e with entry := { e.entry with mode := m }, grant := none }) s
      s.doors[d].grant.elim stored fun g => grantEnded g.slot (handOver true s.clock.now
        (.lapsed g.slot ((workerAt s g.slot).elim 0 (·.badge)) d g.line g.inward g.kind .mode g.time)
        (modZone g.target (fun z => { z with reserved := z.reserved - 1 }) stored)) := by
  have hgrant : (modDoor d (fun e => { e with entry := { e.entry with mode := m } }) s).doors[d].grant =
      s.doors[d].grant := by rw [modDoor_same]
  unfold modeStored
  cases hg : s.doors[d].grant with
  | none =>
    rw [lapseGrant_none (hgrant.trans hg)]
    have hsame : { s.doors[d] with entry := { s.doors[d].entry with mode := m } } =
        { s.doors[d] with entry := { s.doors[d].entry with mode := m }, grant := none } := by rw [← hg]
    exact modDoor_congr (s := s) (f := fun e => { e with entry := { e.entry with mode := m } })
      (g := fun e => { e with entry := { e.entry with mode := m }, grant := none }) hsame
  | some g =>
    rw [lapseGrant_eq (hgrant.trans hg) hgates, modDoor_modDoor]
    rfl

theorem modeSet_doors {s : State} {d : DoorNo} (m : DoorMode) (hlaw : DoorLawful s s.doors[d])
    (hgates : gatesRun s = true) :
    (modeSet d m s).doors[d] =
      (if restsAgain m s.doors[d].state then restedDoor s m (modeStored d m s).doors[d]
      else (modeStored d m s).doors[d]) ∧
    (∀ k : DoorNo, k ≠ d → (modeSet d m s).doors[k] = s.doors[k]) ∧
    (modeSet d m s).link = (modeStored d m s).link := by
  unfold modeSet
  by_cases hs : restsAgain m s.doors[d].state = true
  · have hplace : s.doors[d].state ≠ .egress ∧ s.doors[d].state ≠ .fault ∧ s.doors[d].state ≠ .inactive := by
      rcases restsAgain_iff.1 hs with (hs | hs | hs) | ⟨hs | hs | hs, -⟩ <;> rw [hs] <;> decide
    rw [if_pos hs, if_pos hs, recompute_modeStored m hlaw hgates hplace]
    refine ⟨modDoor_same _ _ _, fun k hk => ?_, rfl⟩
    rw [modDoor_other d k (Ne.symm hk), modeStored_other hk]
  · rw [if_neg hs, if_neg hs]
    exact ⟨rfl, fun k hk => modeStored_other hk m s, rfl⟩

theorem modeSet_ram {s : State} (h : RamCanonical s) (d : DoorNo) (m : DoorMode) :
    RamCanonical (modeSet d m s) := by
  have hstored : RamCanonical (modeStored d m s) :=
    (lapseGrant_doorStep d .mode (modDoor d (fun e => { e with entry := { e.entry with mode := m } }) s)).ram h
  unfold modeSet
  split
  · rw [recompute_eq_modDoor]
    exact hstored
  · exact hstored

/-- What the door of a DOOR_MODE is left as. -/
theorem modeSet_door_spec {s : State} {d : DoorNo} (m : DoorMode) (hlaw : DoorLawful s s.doors[d])
    (hgates : gatesRun s = true) :
    let e := s.doors[d]
    let t := modeSet d m s
    t.doors[d].entry = { e.entry with mode := m } ∧ t.doors[d].grant = none ∧
    (e.state = .secure ∨ e.state = .released ∨ e.state = .free →
      t.doors[d].state = (if m = .free then DoorState.free
        else if e.contact = .closed then DoorState.secure else DoorState.open_)) ∧
    (e.state = .open_ ∨ e.state = .held ∨ e.state = .forced →
      (m = .free → t.doors[d].state = .free) ∧
      (m ≠ .free → t.doors[d].state = e.state ∧ t.doors[d].held = e.held ∧
        t.doors[d].alarmStart = e.alarmStart)) ∧
    (e.state = .fault ∨ e.state = .egress ∨ e.state = .inactive → t.doors[d].state = e.state) := by
  intro e t
  have hdoor : t.doors[d] = _ := (modeSet_doors m hlaw hgates).1
  have hstored := modeStored_door d m s
  have hrested := restedDoor_fields s m (modeStored d m s).doors[d]
  by_cases hs : restsAgain m e.state = true
  · rw [hdoor, if_pos hs]
    obtain ⟨hentry, hgrant, hstate⟩ := hrested
    rw [hentry, hgrant, hstate, hstored]
    refine ⟨rfl, rfl, fun _ => rfl, fun hx => ⟨fun hf => if_pos hf, fun hf => ?_⟩, fun hx => ?_⟩
    · rcases restsAgain_iff.1 hs with hy | ⟨-, hy⟩
      · exact absurd hy (by rcases hx with hx | hx | hx <;> rw [hx] <;> decide)
      · exact absurd hy hf
    · rcases restsAgain_iff.1 hs with hy | ⟨hy, -⟩ <;>
        exact absurd hy (by rcases hx with hx | hx | hx <;> rw [hx] <;> decide)
  · rw [hdoor, if_neg hs, hstored]
    refine ⟨rfl, rfl, fun hx => absurd (restsAgain_iff.2 (.inl hx)) hs,
      fun hx => ⟨fun hf => absurd (restsAgain_iff.2 (.inr ⟨hx, hf⟩)) hs, fun _ => ⟨rfl, rfl, rfl⟩⟩,
      fun _ => rfl⟩

/-- Settles O41: the mode stored and the grant lapsed by `modeStored_eq`, the door set by
`recompute_modeStored`. -/
theorem doorModeSetsTheDoor : Obligations.DoorModeSetsTheDoor := by
  intro notify door mode s su h
  refine ⟨fun hout => ?_, ?_⟩
  · rw [exec_doorMode, carryOut_acts h (.refl s) fun q => takeDoorMode_range hout]
  rintro d m rfl hm hlaw hram e stored lapsed done
  have hgates : gatesRun s = true := by rw [gatesRun, h.running]; rfl
  have hlapsed : modeStored d m s = lapsed := modeStored_eq hgates d m
  have hdone : done (modeSet d m s) := by
    have hcount : (if e.grant.isSome = true then 1 else 0) = bit e.grant.isSome := rfl
    refine (exec_doorMode notify d.val mode s).trans (congrArg Host.Outcome.next ?_)
    rw [hcount]
    refine carryOut_acts h (modeSet_serve h.answers d m) fun q => ?_
    rw [takeDoorMode_eq d hm, modeSet_withRequest]
    rfl
  have hkept : ¬ restsAgain m e.state = true → modeSet d m s = lapsed := fun hs =>
    (if_neg hs).trans hlapsed
  have hrested : restsAgain m e.state = true → modeSet d m s = modDoor d (restedDoor s m) lapsed := fun hs => by
    have hagain : modeSet d m s = recompute d (modeStored d m s) := if_pos hs
    rw [hagain, ← hlapsed]
    refine recompute_modeStored m hlaw hgates ?_
    rcases restsAgain_iff.1 hs with (hs | hs | hs) | ⟨hs | hs | hs, -⟩ <;>
      rw [show s.doors[d].state = _ from hs] <;> decide
  refine ⟨fun hs => ?_, fun hs => ?_, fun hs => ?_, ?_⟩
  · rw [hrested (restsAgain_iff.2 (.inl hs))] at hdone
    exact hdone
  · by_cases hfree : m = .free
    · rw [hrested (restsAgain_iff.2 (.inr ⟨hs, hfree⟩))] at hdone
      rw [if_pos hfree]
      have hsame : restedDoor s m = entered s .free .released := funext fun x => if_pos hfree
      rw [hsame] at hdone
      exact hdone
    · rw [if_neg hfree, ← hkept]
      · exact hdone
      · intro hagain
        rcases restsAgain_iff.1 hagain with hx | ⟨-, hx⟩
        · rcases hs with hs | hs | hs <;> rw [hs] at hx <;> revert hx <;> decide
        · exact hfree hx
  · rw [← hkept]
    · exact hdone
    · intro hagain
      rcases restsAgain_iff.1 hagain with hx | ⟨hx, -⟩ <;> rcases hs with hs | hs | hs <;> rw [hs] at hx <;> revert hx <;> decide
  · have hframe := modeSet_frame d m s
    have hserve := modeSet_serve h.answers d m
    have hcanon := modeSet_ram hram d m
    obtain ⟨hentry, hgrant, hsecure, hopen, hstays⟩ := modeSet_door_spec m hlaw hgates
    obtain ⟨-, hother, hlink⟩ := modeSet_doors m hlaw hgates
    have hreserved : (modeSet d m s).link.reserved =
        if e.grant.isSome = true then s.link.reserved - 1 else s.link.reserved := by
      rw [hlink, modeStored, lapseGrant_reserved (by simp [h.running]), modDoor_same]
      rfl
    obtain ⟨aclock, amode, acal, atable, alines, azones, adoors, apay, abells, afire, -⟩ :=
      answered_frame su notify .done (some (if e.grant.isSome = true then 1 else 0)) none (modeSet d m s)
    have alink := (answered_link_ram su notify .done (some (if e.grant.isSome = true then 1 else 0)) none
      (modeSet d m s)).2
    refine ⟨_, hdone, answered_slotReturned hcanon hserve.workPos notify .done _ none, ?_⟩
    rw [adoors, alink, aclock, amode, acal, alines, apay, abells, afire, atable]
    exact ⟨hentry, hgrant, hsecure, hopen, hstays, hreserved, hother, hframe.clock, hframe.mode, hframe.cal,
      hframe.lines, hframe.pay, hframe.bells, hframe.fire, hframe.index⟩

end Sys2Proof.Machine
end

section
/-! CERTIFICATE. Relay supervision (5.8): the findings taken, and the CLEAR_FAULT check. -/

namespace Sys2Proof.Machine

/-! ### Findings (R98, R99) -/

theorem exec_settleCheck (d : DoorNo) (s : State) : exec (.settleCheck d) s = .next (settleEnds d s) := rfl

theorem exec_driftFinding (d : DoorNo) (s : State) : exec (.driftFinding d) s = .next (driftFound d s) := rfl

theorem Door.stands_eq_none {e : Door} {kind : FaultKind} (h : e.found.map (·.kind) ≠ some kind) :
    e.stands kind = none := by
  unfold Door.stands
  cases hf : e.found with
  | none => rfl
  | some f =>
    refine if_neg fun hk => h ?_
    rw [hf, ← hk]
    rfl

theorem Door.stands_of_found {e : Door} {f : RelayFinding} (h : e.found = some f) :
    e.stands f.kind = some f := by
  unfold Door.stands
  rw [h]
  exact if_pos rfl

/-- The state after a finding has set its mark and made its record. -/
def faultTold (d : DoorNo) (f : RelayFinding) (s : State) : State :=
  raise .doorAlarm (report (.doorFault d f.kind f.cmd f.readback s.doors[d].state)
    (modDoor d (fun e => { e with found := none, mark := true, faultTime := s.clock.now }) s))

theorem faultTold_linkOnly (d : DoorNo) (f : RelayFinding) (s : State) :
    LinkOnly (modDoor d (fun e => { e with found := none, mark := true, faultTime := s.clock.now }) s)
      (faultTold d f s) :=
  (report_linkOnly _ _).trans (raise_linkOnly _ _)

section TakeFinding

variable {d : DoorNo} {f : RelayFinding} {s : State}

theorem takeFinding_marked (h : s.doors[d].mark = true) :
    takeFinding d f s = modDoor d (fun e => { e with found := none }) s := by
  unfold takeFinding finding
  rw [modDoor_same]
  exact if_pos h

variable (h : s.doors[d].mark = false)

include h

/-- A finding taken at a door without its mark, up to the arms of the door's state. -/
theorem takeFinding_unfold : takeFinding d f s =
    finding d f (modDoor d (fun e => { e with found := none }) s) ∧
    (modDoor d (fun e => { e with found := none }) s).doors[d].mark = false ∧
    (modDoor d (fun e => { e with found := none }) s).doors[d].state = s.doors[d].state ∧
    raise .doorAlarm (report (.doorFault d f.kind f.cmd f.readback s.doors[d].state)
      (modDoor d (fun e => { e with mark := true, faultTime := s.clock.now })
        (modDoor d (fun e => { e with found := none }) s))) = faultTold d f s := by
  refine ⟨rfl, ?_, ?_, ?_⟩
  · rw [modDoor_same]
    exact h
  · rw [modDoor_same]
  · rw [modDoor_modDoor]
    rfl

theorem takeFinding_stays (hs : s.doors[d].state = .inactive ∨ s.doors[d].state = .egress ∨
    s.doors[d].state = .fault) : takeFinding d f s = faultTold d f s := by
  obtain ⟨htake, hmark, hstate, htold⟩ := takeFinding_unfold (f := f) h
  rw [htake, ← htold]
  unfold finding
  dsimp only
  rw [hmark, hstate]
  rcases hs with hs | hs | hs <;> rw [hs] <;> rfl

theorem takeFinding_faults (hs : s.doors[d].state = .secure ∨ s.doors[d].state = .open_ ∨
    s.doors[d].state = .held ∨ s.doors[d].state = .forced ∨ s.doors[d].state = .free) :
    takeFinding d f s = modDoor d (entered s .fault .locked) (faultTold d f s) := by
  obtain ⟨htake, hmark, hstate, htold⟩ := takeFinding_unfold (f := f) h
  have henter : entered s .fault .locked = enter s.mode.rehearsal .fault :=
    funext fun e => (enter_eq_entered s .fault e).symm
  rw [htake, ← htold, henter]
  unfold finding
  dsimp only
  rw [hmark, hstate]
  rcases hs with hs | hs | hs | hs | hs <;> rw [hs] <;> rfl

theorem takeFinding_released (hs : s.doors[d].state = .released) :
    takeFinding d f s = modDoor d (entered s .fault .locked) (lapseGrant d .fault (faultTold d f s)) := by
  obtain ⟨htake, hmark, hstate, htold⟩ := takeFinding_unfold (f := f) h
  have henter : entered s .fault .locked = enter s.mode.rehearsal .fault :=
    funext fun e => (enter_eq_entered s .fault e).symm
  rw [htake, ← htold, henter]
  unfold finding
  dsimp only
  rw [hmark, hstate, hs]
  rfl

end TakeFinding

theorem faultTold_grant (d : DoorNo) (f : RelayFinding) (s : State) :
    (faultTold d f s).doors[d].grant = s.doors[d].grant := by
  rw [(faultTold_linkOnly d f s).doors, modDoor_same]

/-- The finding of the command's kind is taken, unless the door's CLEAR_FAULT check ends. -/
theorem exec_takeFinding {d : DoorNo} {s : State} {c : Instr} {f : RelayFinding}
    (hf : s.doors[d].found = some f)
    (hc : (c = .settleCheck d ∧ f.kind = .settle ∧ (checksDoor s d = false ∨ s.doors[d].settle ≠ some 0)) ∨
      (c = .driftFinding d ∧ f.kind = .drift)) : exec c s = .next (takeFinding d f s) := by
  have hstands := Door.stands_of_found hf
  rcases hc with ⟨rfl, hkind, hcheck⟩ | ⟨rfl, hkind⟩
  · rw [hkind] at hstands
    rw [exec_settleCheck, settleEnds]
    rw [if_neg, hstands]
    rintro ⟨hz, hd⟩
    rcases hcheck with h | h
    · rw [h] at hd
      cases hd
    · exact h hz
  · rw [hkind] at hstands
    rw [exec_driftFinding, driftFound, hstands]

/-! ### The CLEAR_FAULT check (R100) -/

theorem exec_clearFault (notify : Bool) (door : Nat) (s : State) :
    exec (.clearFault notify door) s =
      .next (carryOut (.clearFault door) notify (takeClearFault door) s) := rfl

/-- The doors after one has been cleared of its fault. -/
def clearedDoors (d : DoorNo) (s : State) : Vector Door 12 :=
  (recompute d (modDoor d (fun e => { e with mark := false }) s)).doors

theorem faultCleared_eq (d : DoorNo) (s : State) :
    faultCleared d s = endRequest .done (some 1) none
      (report (.doorRestored d .fault s.doors[d].faultTime) { s with doors := clearedDoors d s }) := by
  unfold faultCleared clearedDoors
  dsimp only
  rw [recompute_eq_modDoor]
  rfl

theorem clearedDoors_door {d : DoorNo} {s : State} (hfire : fireActive s = false)
    (hgates : gatesRun s = true) :
    (clearedDoors d s)[d].mark = false ∧ (clearedDoors d s)[d].entry = s.doors[d].entry ∧
    (clearedDoors d s)[d].state = restingState { s.doors[d] with mark := false } ∧
    ∀ d' : DoorNo, d' ≠ d → (clearedDoors d s)[d'] = s.doors[d'] := by
  have hcold : fireActive (modDoor d (fun e => { e with mark := false }) s) = false := hfire
  unfold clearedDoors
  rw [recompute_eq_modDoor, modDoor_same, modDoor_same, recomputedDoor_mark, recomputedDoor_entry,
    recomputedDoor_state, recomputedState_of_no_fire hcold]
  refine ⟨rfl, rfl, if_pos hgates, fun d' hd => ?_⟩
  rw [modDoor_other d d' (Ne.symm hd), modDoor_other d d' (Ne.symm hd)]

theorem clearedDoors_withRequest (q : Option Request) (d : DoorNo) (s : State) :
    clearedDoors d (withRequest q s) = clearedDoors d s := by
  have h := recompute_withRequest q d (modDoor d (fun e => { e with mark := false }) s)
  exact (congrArg State.doors h :)

/-- A door whose REX window ends, its relay LOCKED, with a settle check of its own to run. -/
theorem endWindow_settles (r : Bool) (e : Door) :
    { endWindow r e with settle := some 4, disagree := 0 } =
      { e with release := none, cmd := .locked, settle := some 4, disagree := 0 } := by
  unfold endWindow drive
  cases e with
  | mk entry state grant release held cmd =>
    cases cmd <;> simp

theorem takeClearFault_of_marked {d : DoorNo} {s : State} (hfire : fireActive s = false)
    (hmark : s.doors[d].mark = true) :
    takeClearFault d.val s = if s.doors[d].entry.supervised then
      setStage .checking (modDoor d (fun e => { e with settle := some Config.settleBeats, disagree := 0 })
        (modDoor d (endWindow s.mode.rehearsal) s))
      else faultCleared d (modDoor d (endWindow s.mode.rehearsal) s) := by
  unfold takeClearFault
  rw [doorOf_val]
  dsimp only
  rw [hfire, hmark]
  rfl

/-- Settles O51: the findings by `exec_takeFinding`, the check by `faultCleared_eq`. -/
theorem relaySupervisionFindsFaults : Obligations.RelaySupervisionFindsFaults := by
  refine ⟨fun d s => ⟨fun hkind => ?_, fun hkind => ?_, fun c f hf hc => ?_⟩, fun notify door s su =>
    ⟨fun h hdoor => ?_, fun d hrun ha hret hsu hfire hz hq => ?_, ?_⟩⟩
  · have hnone := Door.stands_eq_none hkind
    refine ⟨fun hz => ?_, fun hz hcheck => ?_⟩
    · rw [exec_settleCheck, settleEnds]
      rw [if_neg fun h => hz h.1, hnone]
      exact congrArg Host.Outcome.next (if_neg hz)
    · rw [exec_settleCheck, settleEnds]
      rw [if_neg (by rw [hcheck]; simp), hnone]
      exact congrArg Host.Outcome.next (if_pos hz)
  · rw [exec_driftFinding, driftFound, Door.stands_eq_none hkind]
  · have htake := exec_takeFinding hf hc
    refine ⟨fun hmark => ?_, ?_⟩
    · rw [htake, takeFinding_marked hmark]
    intro hmark told
    refine ⟨fun hs => ?_, fun hs => ?_, fun g w hs hg hw hgates => ?_⟩
    · rw [htake, takeFinding_stays hmark hs]
      rfl
    · rw [htake]
      rcases hs with hs | hs | hs | hs | hs | ⟨hs, hg⟩
      · rw [takeFinding_faults hmark (.inl hs)]
        rfl
      · rw [takeFinding_faults hmark (.inr (.inl hs))]
        rfl
      · rw [takeFinding_faults hmark (.inr (.inr (.inl hs)))]
        rfl
      · rw [takeFinding_faults hmark (.inr (.inr (.inr (.inl hs))))]
        rfl
      · rw [takeFinding_faults hmark (.inr (.inr (.inr (.inr hs))))]
        rfl
      · rw [takeFinding_released hmark hs, lapseGrant_none ((faultTold_grant d f s).trans hg)]
        rfl
    · have hlink := faultTold_linkOnly d f s
      rw [htake, takeFinding_released hmark hs,
        lapseGrant_eq ((faultTold_grant d f s).trans hg) (hlink.gatesRun.trans hgates),
        workerAt_congr hlink.table, hlink.clock]
      rw [show workerAt (modDoor d (fun e => { e with found := none, mark := true, faultTime := s.clock.now }) s)
        g.slot = some w from hw]
      rfl
  · rw [exec_clearFault, carryOut_acts h (.refl s) fun q => ?_]
    rw [takeClearFault, doorOf_eq_none hdoor]
  · have hcheck : checksDoor s d = true := by simp [checksDoor, hq]
    have hgates : gatesRun s = true := by rw [gatesRun, hrun]; rfl
    refine ⟨fun hne => ?_, fun heq => ?_⟩
    · rw [exec_settleCheck, settleEnds]
      rw [if_pos ⟨hz, hcheck⟩, if_neg hne]
      exact congrArg Host.Outcome.next (endRequest_returns
        (s := modDoor d (fun e => { e with settle := none, disagree := 0 }) s) hrun ha hsu hq _ _ _)
    · let settled := modDoor d (fun e => { e with settle := none, disagree := 0 }) s
      have hcleared := clearedDoors_door (d := d) (s := settled) hfire hgates
      rw [modDoor_same] at hcleared
      obtain ⟨hmark, hentry, hstate, hother⟩ := hcleared
      refine ⟨clearedDoors d settled, ?_, hmark, hentry, hstate, fun d' hd => ?_⟩
      · have hreport := report_serve (s := { s with doors := clearedDoors d settled }) ha
          (.doorRestored d .fault s.doors[d].faultTime)
        rw [exec_settleCheck, settleEnds]
        rw [if_pos ⟨hz, hcheck⟩, if_pos heq, faultCleared_eq, modDoor_same]
        exact congrArg Host.Outcome.next (endRequest_returns (hreport.run.trans hrun)
          (hreport.answers.trans ha) (hreport.setup.trans hsu) (hreport.request.trans hq) _ _ _)
      · rw [hother d' hd, modDoor_other d d' (Ne.symm hd)]
  · rintro d h rfl e
    refine ⟨fun hfire => ?_, fun hfire hmark => ?_, fun hfire hmark hs hsup => ?_, fun hfire hmark hsup => ?_⟩
    · rw [exec_clearFault, carryOut_acts h (.refl s) fun q => ?_]
      rw [takeClearFault, doorOf_val]
      exact if_pos hfire
    · rw [exec_clearFault, carryOut_acts h (.refl s) fun q => ?_]
      rw [takeClearFault, doorOf_val]
      exact (if_neg (by rw [show fireActive (withRequest q s) = false from hfire]; decide)).trans (if_pos hmark)
    · rw [exec_clearFault, carryOut_ready h]
      have htake := takeClearFault_of_marked (s := beginRequest (.clearFault d.val) notify s) hfire hmark
      refine congrArg Host.Outcome.next (htake.trans ((if_pos hsup).trans ?_))
      rw [modDoor_modDoor]
      have hdoor : modDoor d (fun e => { endWindow s.mode.rehearsal e with settle := some 4, disagree := 0 }) s =
          modDoor d (fun e => { e with release := none, cmd := .locked, settle := some 4, disagree := 0 }) s :=
        modDoor_congr (endWindow_settles _ _)
      exact congrArg (fun u : State => { u with
        link := { s.link with request := some ⟨.clearFault d.val, notify, .checking, 0, 0⟩ } }) hdoor
    · have hgates : gatesRun s = true := by rw [gatesRun, h.running]; rfl
      let locked := modDoor d (endWindow s.mode.rehearsal) s
      have hwindow : ∀ r, (endWindow r e).entry = e.entry ∧ (endWindow r e).contact = e.contact ∧
          (endWindow r e).faultTime = e.faultTime := fun r => by simp [endWindow]
      obtain ⟨hkept, hcontact, htime⟩ := hwindow s.mode.rehearsal
      have hdoor : locked.doors[d] = endWindow s.mode.rehearsal e := modDoor_same _ _ _
      obtain ⟨hclear, hentry, hstate, hother⟩ := clearedDoors_door (d := d) (s := locked) hfire hgates
      have hresting : restingState { locked.doors[d] with mark := false } =
          restingState { e with mark := false } := by
        rw [hdoor]
        simp only [restingState, hkept, hcontact]
      have hreport := report_serve (s := { s with doors := clearedDoors d locked }) h.answers
        (.doorRestored d .fault e.faultTime)
      have hset : ServeStep s { s with doors := clearedDoors d locked } := serveStep_of_eq rfl rfl rfl
      have hserve := hset.trans hreport
      refine ⟨clearedDoors d locked, ?_, hclear, by rw [hentry, hdoor, hkept], hstate.trans hresting,
        fun d' hd => ?_⟩
      · rw [exec_clearFault, carryOut_acts h hserve fun q => ?_]
        have htake := takeClearFault_of_marked (s := withRequest q s) hfire hmark
        refine htake.trans ((if_neg ?_).trans ?_)
        · rw [show (withRequest q s).doors[d].entry.supervised = false from hsup]
          decide
        · have hunit := faultCleared_eq d (withRequest q locked)
          rw [clearedDoors_withRequest, show (withRequest q locked).doors[d] = _ from hdoor, htime] at hunit
          refine hunit.trans (congrArg (endRequest .done (some 1) none) ?_)
          exact report_withRequest q _ { s with doors := clearedDoors d locked }
      · rw [hother d' hd, modDoor_other d d' (Ne.symm hd)]

end Sys2Proof.Machine
end

section
/-! CERTIFICATE. What a closing does (7.1, 7.4): the minutes by class, the effective times, the break, the
overtime, and the record it leaves. -/

namespace Sys2Proof.Machine

/-! ### Minutes (R126) -/

theorem inNight_iff (p : PayTables) (m : Nat) : inNight p m = true ↔
    (p.nStart < p.nEnd ∧ p.nStart ≤ m ∧ m < p.nEnd) ∨
      (p.nEnd < p.nStart ∧ (p.nStart ≤ m ∨ m < p.nEnd)) := by
  unfold inNight
  split_ifs <;> simp <;> omega

theorem countMinutes_eq_countP (cal : Calendar) (p : PayTables) (k : MinuteKind) (start : Nat) :
    ∀ m : Nat, countMinutes cal p k start m =
      (List.range m).countP fun j => minuteKind cal p (start + j * 60) == k
  | 0 => rfl
  | m + 1 => by
    rw [countMinutes, countMinutes_eq_countP cal p k start m, List.range_succ, List.countP_append,
      List.countP_singleton]
    rfl

/-- Every minute is of one kind. -/
theorem countMinutes_sum (cal : Calendar) (p : PayTables) (start : Nat) : ∀ m : Nat,
    countMinutes cal p .day start m + countMinutes cal p .night start m +
      countMinutes cal p .holiday start m = m
  | 0 => rfl
  | m + 1 => by
    have ih := countMinutes_sum cal p start m
    have hone : bit (minuteKind cal p (start + m * 60) == .day) +
        bit (minuteKind cal p (start + m * 60) == .night) +
        bit (minuteKind cal p (start + m * 60) == .holiday) = 1 := by
      cases minuteKind cal p (start + m * 60) <;> rfl
    simp only [countMinutes]
    omega

/-! ### The equations of a closing -/

/-- The effective out of a closing with its LEFT_EARLY flag (R112, R124). -/
def closingOut (r : PayRule) (i : OpenInterval) (eIn : Nat) (tOut : Option Nat) : Nat × Bool :=
  tOut.elim (i.captured.elim (eIn, false) fun c => (c.te, false)) (effectiveOut r i.captured)

section Closing

variable (cal : Calendar) (p : PayTables) (w : Worker) (i : OpenInterval) (tOut : Option Nat)

theorem closing_times :
    let r := (closing cal p w i tOut).2
    let rule := payRule p i.rule
    r.eIn = (effectiveIn rule i w.lastEOut).1 ∧ r.late = (effectiveIn rule i w.lastEOut).2 ∧
    r.eOut = (closingOut rule i r.eIn tOut).1 ∧ r.leftEarly = (closingOut rule i r.eIn tOut).2 ∧
    r.missedOut = (tOut.isNone && i.captured.isSome) := by
  cases tOut with
  | some t => exact ⟨rfl, rfl, rfl, rfl, rfl⟩
  | none =>
    unfold closing closingOut
    cases i.captured <;> exact ⟨rfl, rfl, rfl, rfl, rfl⟩

/-- The amounts of a closing, as the model reckons them (R125 to R129). -/
theorem closing_amounts :
    let r := (closing cal p w i tOut).2
    let rule := payRule p i.rule
    let m := spanMinutes r.eIn r.eOut
    let dm := countMinutes cal p .day r.eIn m
    let n := countMinutes cal p .night r.eIn m
    let h := countMinutes cal p .holiday r.eIn m
    let b := r.breakMin
    let dm1 := dm - min b dm
    let n1 := n - min (b - min b dm) n
    r.tookBreak = (!w.breakTaken && decide (0 < rule.breakMin) && decide (rule.breakAt ≤ w.cday + m)) ∧
    b = (if r.tookBreak = true then min rule.breakMin m else 0) ∧
    r.hol = h - min (b - min b dm - min (b - min b dm) n) h ∧
    r.ot = min (w.cday + (dm1 + n1 + r.hol) - rule.overtimeAt) (dm1 + n1) ∧
    r.reg = dm1 - min r.ot dm1 ∧ r.night = n1 - (r.ot - min r.ot dm1) ∧
    r.saturated = (decide (65535 < w.reg + r.reg) || decide (65535 < w.night + r.night) ||
      decide (65535 < w.ot + r.ot) || decide (65535 < w.hol + r.hol)) ∧
    r.grade = w.grade ∧
    (closing cal p w i tOut).1 = { w with
      interval := none
      cday := satAdd 4095 w.cday (dm1 + n1 + r.hol)
      breakTaken := w.breakTaken || r.tookBreak
      lastEOut := max w.lastEOut r.eOut
      reg := satAdd 65535 w.reg r.reg
      night := satAdd 65535 w.night r.night
      ot := satAdd 65535 w.ot r.ot
      hol := satAdd 65535 w.hol r.hol
      saturated := w.saturated || r.saturated } :=
  ⟨rfl, rfl, rfl, rfl, rfl, rfl, rfl, rfl, rfl⟩

end Closing

theorem effectiveIn_captured {r : PayRule} {i : OpenInterval} {c : ShiftRun} (h : i.captured = some c)
    (lastEOut : Nat) : effectiveIn r i lastEOut =
      if i.tIn ≤ c.ts + r.graceLate * 60 then (max c.ts lastEOut, false)
      else (max (max c.ts (roundIn r i.tIn)) lastEOut, true) := by
  unfold effectiveIn
  rw [h]
  dsimp only
  split <;> rfl

theorem effectiveIn_unscheduled {r : PayRule} {i : OpenInterval} (h : i.captured = none)
    (lastEOut : Nat) : effectiveIn r i lastEOut = (max (roundIn r i.tIn) lastEOut, false) := by
  unfold effectiveIn
  rw [h]

theorem sub_min_right (x b : Nat) : x - min b x = x - b := by omega

theorem sub_min_left (x b : Nat) : b - min b x = b - x := by omega

/-- The classes sum to the span less the break. -/
theorem class_sums {b dm n h m reg night ot hol bound : Nat} (hsum : dm + n + h = m) (hle : b ≤ m)
    (hhol : hol = h - (b - (dm + n))) (hot : ot = min bound (dm - b + (n - (b - dm))))
    (hreg : reg = dm - b - ot) (hnight : night = n - (b - dm) - (ot - (dm - b))) :
    reg + night + ot + hol + b = m ∧ reg + night + ot ≤ dm + n ∧ hol ≤ h ∧
      dm - b + (n - (b - dm)) + hol = reg + night + ot + hol := by omega

/-- Settles O53: the minutes, and the equations of a closing. -/
theorem closingAddsTheClassMinutes : Obligations.ClosingAddsTheClassMinutes := by
  refine ⟨fun cal p sec => ⟨fun hol => if_pos hol, fun hol hnight => ?_, fun hol hday => ?_,
    fun k m => countMinutes_eq_countP cal p k sec m⟩, fun cal p w i tOut => ?_⟩
  · exact (if_neg hol).trans (if_pos ((inNight_iff _ _).2 hnight))
  · exact (if_neg hol).trans (if_neg fun hn => hday ((inNight_iff _ _).1 hn))
  intro x r rule m dm n h
  obtain ⟨heIn, hlate, heOut, hearly, hmissed⟩ := closing_times cal p w i tOut
  obtain ⟨htook, hbreak, hhol, hot, hreg, hnight, hsat, hgrade, hrecord⟩ := closing_amounts cal p w i tOut
  have hsum : dm + n + h = m := countMinutes_sum cal p r.eIn m
  have hle : r.breakMin ≤ m := by
    rw [show r.breakMin = _ from hbreak]
    split
    · exact min_le_right _ _
    · exact Nat.zero_le _
  simp only [sub_min_right, sub_min_left] at hhol hot hreg hnight hrecord
  rw [Nat.sub_sub] at hhol
  have hparts := class_sums hsum hle hhol hot hreg hnight
  refine ⟨fun c hc => ?_, fun hnone => ?_, hsum, ?_, hbreak, ⟨?_, hreg, hnight, hhol⟩, hparts.1, hparts.2.1,
    hparts.2.2.1, fun ht hnone => ?_, ?_, hgrade, ?_⟩
  · rw [effectiveIn_captured hc] at heIn hlate
    rw [closingOut, hc] at heOut hearly
    rw [hc] at hmissed
    refine ⟨fun hin => ?_, fun hin => ?_, ?_, ?_⟩
    · rw [if_pos hin] at heIn hlate
      exact ⟨heIn, hlate⟩
    · rw [if_neg (Nat.not_le.2 hin)] at heIn hlate
      exact ⟨heIn, hlate⟩
    · rintro rfl
      exact ⟨heOut, hearly, hmissed⟩
    · rintro t rfl
      rw [Option.elim_some, effectiveOut] at heOut hearly
      refine ⟨hmissed, fun hte => ?_, fun hte hgrace => ?_, fun hgrace => ?_⟩
      · rw [if_pos hte] at heOut hearly
        exact ⟨heOut, hearly⟩
      · rw [if_neg (Nat.not_le.2 hte), if_pos hgrace] at heOut hearly
        exact ⟨heOut, hearly⟩
      · rw [if_neg (by omega), if_neg (Nat.not_le.2 hgrace)] at heOut hearly
        exact ⟨heOut, hearly⟩
  · rw [effectiveIn_unscheduled hnone] at heIn hlate
    rw [closingOut, hnone] at heOut hearly
    rw [hnone, Option.isSome_none, Bool.and_false] at hmissed
    refine ⟨heIn, hlate, ?_, hmissed, ?_, ?_⟩
    · cases tOut <;> exact hearly
    · rintro rfl
      exact heOut
    · rintro t rfl
      exact heOut
  · rw [htook]
    simp only [Bool.and_eq_true, Bool.not_eq_true', decide_eq_true_eq, and_assoc]
    exact Iff.rfl
  · refine hot.trans ?_
    rw [hhol]
    rfl
  · have heq : r.eOut = r.eIn := by
      rw [closingOut, ht, hnone] at heOut
      subst ht
      exact heOut
    have hm : m = 0 := if_pos heq.le
    exact Nat.le_zero.1 ((Nat.le.intro hparts.1).trans hm.le)
  · rw [hsat]
    simp only [Bool.or_eq_true, decide_eq_true_eq, or_assoc]
    exact Iff.rfl
  · have hcday := congrArg (satAdd 4095 w.cday) hparts.2.2.2
    rw [← show satAdd 4095 w.cday (r.reg + r.night + r.ot + r.hol) =
      min 4095 (w.cday + (r.reg + r.night + r.ot + r.hol)) from rfl, ← hcday]
    exact hrecord

end Sys2Proof.Machine
end


section
/-! CERTIFICATE. Polls: an idle drain writes nothing, and the slot at the work list position is taken or
answered (R165, R166). -/

namespace Sys2Proof.Machine

/-! ### A drain with nothing to do -/

theorem serveOne_of_idle {s : State} (hwithdraw : withdrawWaits s = false) (hwaiting : waitingSlots s = []) :
    serveOne s = none := by
  unfold serveOne
  rw [hwithdraw, hwaiting]
  exact ite_self _

theorem serveAll_of_serveOne {s : State} (h : serveOne s = none) (n : Nat) : serveAll n s = s := by
  cases n with
  | zero => rfl
  | succ n =>
    unfold serveAll
    rw [h]

/-- A drain with no record held and nobody waiting for a place changes nothing. -/
theorem drain_of_idle {s : State} (hwithdraw : withdrawWaits s = false) (hwaiting : waitingSlots s = [])
    (hqueue : s.link.queue = []) : drain s = s := by
  have hserve : serveAll (waiters s) s = s :=
    serveAll_of_serveOne (serveOne_of_idle hwithdraw hwaiting) _
  have hempty : ¬(s.regs.run = .running ∧ s.link.queue.isEmpty = false) := by simp [hqueue]
  unfold drain
  split
  · unfold drainSteps
    rw [hserve]
    exact if_neg hempty
  · rfl

theorem withdrawWaits_of_none {s : State} (h : s.link.request = none) : withdrawWaits s = false := by
  unfold withdrawWaits
  rw [h]

/-! ### The slot at the work list position -/

/-- The return of a request that has not begun is written like any other (R166, R167). -/
theorem settleReturn_pending {s : State} {su : Setup} (ha : s.linkAnswers = [])
    (hs : s.link.setup = some su) (hq : s.link.request = none) (st : Status)
    (count resume : Option Nat) (notify : Bool) :
    settleReturn { s with link := { s.link with
      ret := some ⟨st, count, resume, notify, s.link.draws⟩
      draws := s.link.draws + 1 } } = answered su notify st count resume s := by
  obtain ⟨clock, mode, cal, table, lines, zones, doors, pay, bells, fire, link, regs, ram, answers,
    pending⟩ := s
  obtain ⟨setup, workPos, journalPos, fill, queue, reserved, holdGap, lost, seq, contWritten, request,
    output, ret, muster, pollTimer, draws⟩ := link
  dsimp only at ha hs hq
  subst ha hs hq
  rfl

theorem takeBody_none {su : Setup} {off : Nat} {s : State} (ha : s.linkAnswers = [])
    (hs : s.link.setup = some su) (hq : s.link.request = none)
    (hbody : readRequest s.ram su.workList off = none) :
    takeBody su off s
      = answered su (readNotify s.ram su.workList off) .kindUnknown none none s := by
  unfold takeBody
  rw [hbody]
  exact settleReturn_pending ha hs hq _ _ _ _

theorem takeBody_some {su : Setup} {off : Nat} {s : State} {r : Req}
    (hbody : readRequest s.ram su.workList off = some r) :
    takeBody su off s = beginRequest r (readNotify s.ram su.workList off) s := by
  unfold takeBody
  rw [hbody]

/-- With no error response to come, the slot is taken exactly when it is POSTED (R165, R166). -/
theorem examineSlot_eq {s : State} {su : Setup} (ha : s.linkAnswers = []) (hs : s.link.setup = some su) :
    examineSlot s = if readByte s.ram su.workList (64 * s.link.workPos) = 0x5A
      then takeBody su (64 * s.link.workPos) s else s := by
  have hone := linkAccess_nil ha
  unfold examineSlot
  rw [hs]
  dsimp only
  rw [hone]
  dsimp only
  rw [hone]

/-! ### The poll -/

/-- A poll with nothing to drain and nothing in progress examines its slot (R165). -/
theorem pollOnce_of_ready {s : State} {su : Setup} (h : ReadyFor s su) (hqueue : s.link.queue = [])
    (hwaiting : waitingSlots s = []) :
    pollOnce s
      = examineSlot { s with link := { s.link with pollTimer := some su.poll } } := by
  have hrestart : restartPoll s = { s with link := { s.link with pollTimer := some su.poll } } := by
    unfold restartPoll
    rw [h.setup]
    rfl
  have hdrain : drain { s with link := { s.link with pollTimer := some su.poll } }
      = { s with link := { s.link with pollTimer := some su.poll } } :=
    drain_of_idle (withdrawWaits_of_none h.request) hwaiting hqueue
  have hfree : mayExamine { s with link := { s.link with pollTimer := some su.poll } } = true := by
    unfold mayExamine
    simp [h.running, h.request, h.ret, h.muster]
  unfold pollOnce
  rw [hrestart]
  dsimp only
  rw [hdrain, hfree]
  exact if_pos h.running

theorem pollOnce_of_not_running {s : State} (h : s.regs.run ≠ .running) : pollOnce s = s := if_neg h

theorem exec_poll (host : HostWrites) (s : State) :
    exec (.poll host) s = .next (pollOnce (s.hostWrites host)) := rfl

theorem exec_nudge (host : HostWrites) (s : State) :
    exec (.nudge host) s = .next (pollOnce (s.hostWrites host)) := rfl

/-- A poll by the timer and one by NUDGE are the same poll (R165). -/
theorem exec_of_poll {c : Instr} {host : HostWrites} (h : c = .poll host ∨ c = .nudge host) (s : State) :
    exec c s = .next (pollOnce (s.hostWrites host)) := by
  obtain rfl | rfl := h
  · exact exec_poll host s
  · exact exec_nudge host s

/-- Settles O20, by the slot that the poll examines after its idle drain. -/
theorem pollTakesThePostedSlot : Obligations.PollTakesThePostedSlot := by
  unfold Obligations.PollTakesThePostedSlot
  intro c host s su hc m off polled
  rw [exec_of_poll hc]
  refine ⟨fun hr => congrArg Host.Outcome.next (pollOnce_of_not_running hr), fun h hqueue hwaiting => ?_⟩
  have hready : ReadyFor (s.hostWrites host) su :=
    ⟨h.running, h.request, h.ret, h.muster, h.answers, h.setup⟩
  have hpoll : pollOnce (s.hostWrites host)
      = if readByte m su.workList off = 0x5A then takeBody su off polled else polled :=
    (pollOnce_of_ready hready hqueue hwaiting).trans (examineSlot_eq h.answers h.setup)
  rw [hpoll]
  refine ⟨fun hb => ?_, fun hb hbody => ?_, fun r hb hbody => ?_⟩
  · rw [if_neg hb]
  · rw [if_pos hb]
    exact congrArg Host.Outcome.next (takeBody_none (s := polled) h.answers h.setup h.request hbody)
  · rw [if_pos hb, takeBody_some (s := polled) hbody]
    rfl

end Sys2Proof.Machine
end


section
/-! CERTIFICATE. Deadlines: the order in which workers are taken, the first deadline reached, and the
first waiting closing (R111, R113, R114, R116). -/

namespace Sys2Proof.Machine

/-! ### The order of deadlines -/

/-- The order of R111 on pairs of a deadline and a slot. -/
def EarlierDeadline (a b : Nat × Nat) : Prop := a.1 < b.1 ∨ (a.1 = b.1 ∧ a.2 < b.2)

theorem insertDeadline_perm (e : Nat × Nat) :
    ∀ l : List (Nat × Nat), (insertDeadline e l).Perm (e :: l)
  | [] => .refl _
  | x :: rest => by
    unfold insertDeadline
    split
    · exact .refl _
    · exact ((insertDeadline_perm e rest).cons x).trans (.swap e x rest)

/-- A pair whose slot comes before all the others' goes to its place in the order. -/
theorem insertDeadline_ordered {e : Nat × Nat} :
    ∀ {l : List (Nat × Nat)}, l.Pairwise EarlierDeadline → (∀ x ∈ l, e.2 < x.2) →
      (insertDeadline e l).Pairwise EarlierDeadline
  | [], _, _ => List.pairwise_singleton _ _
  | x :: rest, hl, hslot => by
    obtain ⟨hx, hrest⟩ := List.pairwise_cons.1 hl
    have hex : e.2 < x.2 := hslot x List.mem_cons_self
    unfold insertDeadline
    split
    · next hle =>
      refine List.pairwise_cons.2 ⟨fun y hy => ?_, hl⟩
      have hey := hslot y hy
      have hxy : x.1 ≤ y.1 := by
        obtain rfl | hy := List.mem_cons.1 hy
        · exact Nat.le_refl _
        · obtain h | h := hx y hy <;> omega
      unfold EarlierDeadline
      omega
    · next hlt =>
      refine List.pairwise_cons.2 ⟨fun y hy => ?_,
        insertDeadline_ordered hrest fun y hy => hslot y (List.mem_cons_of_mem x hy)⟩
      obtain rfl | hy := List.mem_cons.1 ((insertDeadline_perm e rest).mem_iff.1 hy)
      · exact .inl (Nat.lt_of_not_le hlt)
      · exact hx y hy

/-- Inserted one by one from the last slot to the first, the pairs stand in the order of R111. -/
theorem foldr_insertDeadline : ∀ {l : List (Nat × Nat)}, l.Pairwise (fun a b => a.2 < b.2) →
    (l.foldr insertDeadline []).Perm l ∧ (l.foldr insertDeadline []).Pairwise EarlierDeadline
  | [], _ => ⟨.refl _, .nil⟩
  | e :: rest, hl => by
    obtain ⟨he, hrest⟩ := List.pairwise_cons.1 hl
    obtain ⟨hperm, hordered⟩ := foldr_insertDeadline hrest
    exact ⟨(insertDeadline_perm e _).trans (hperm.cons e),
      insertDeadline_ordered hordered fun x hx => he x (hperm.mem_iff.1 hx)⟩

/-- The deadline and the slot of a listed worker whose interval passes a test. -/
def pickedDeadline (pick : OpenInterval → Bool) (e : Nat × Worker) : Option (Nat × Nat) :=
  match e.2.interval with
  | some i => if pick i then some (i.deadline, e.1) else none
  | none => none

theorem pickedDeadline_eq_some {pick : OpenInterval → Bool} {e : Nat × Worker} {d k : Nat} :
    pickedDeadline pick e = some (d, k) ↔
      e.1 = k ∧ ∃ i, e.2.interval = some i ∧ pick i = true ∧ i.deadline = d := by
  unfold pickedDeadline
  cases hi : e.2.interval with
  | none => simp
  | some i =>
    by_cases hp : pick i = true
    · simp [hp, and_comm]
    · simp [hp]

theorem slotsByDeadline_eq (pick : OpenInterval → Bool) (s : State) :
    slotsByDeadline pick s
      = ((s.table.workers.filterMap (pickedDeadline pick)).foldr insertDeadline []).map (·.2) := rfl

/-- In a table in slot order, the slots listed are those of the workers whose interval passes the test,
by deadline and then by slot. -/
theorem slotsByDeadline_ordered (pick : OpenInterval → Bool) {s : State}
    (hs : s.table.workers.Pairwise fun a b => a.1 < b.1) :
    let at_ : Nat → Option OpenInterval := fun slot => (workerAt s slot).bind (·.interval)
    let deadline : Nat → Nat := fun slot => (at_ slot).elim 0 (·.deadline)
    (∀ slot : Nat, slot ∈ slotsByDeadline pick s ↔ (at_ slot).any pick = true) ∧
    (slotsByDeadline pick s).Pairwise fun a b =>
      deadline a < deadline b ∨ (deadline a = deadline b ∧ a < b) := by
  intro at_ deadline
  have hslots : (s.table.workers.filterMap (pickedDeadline pick)).Pairwise (fun a b => a.2 < b.2) := by
    refine List.pairwise_filterMap.2 (hs.imp fun {a b} hab x hx y hy => ?_)
    rw [← (pickedDeadline_eq_some.1 hx).1, ← (pickedDeadline_eq_some.1 hy).1]
    exact hab
  obtain ⟨hperm, hordered⟩ := foldr_insertDeadline hslots
  have hmem : ∀ x : Nat × Nat, x ∈ (s.table.workers.filterMap (pickedDeadline pick)).foldr
      insertDeadline [] ↔ ∃ i, at_ x.2 = some i ∧ pick i = true ∧ i.deadline = x.1 := by
    intro x
    rw [hperm.mem_iff, List.mem_filterMap]
    constructor
    · rintro ⟨⟨k, w⟩, hw, hx⟩
      obtain ⟨rfl, i, hi, hpick⟩ := pickedDeadline_eq_some.1 hx
      have hat : workerAt s x.2 = some w := lookupSlot_of_mem hs hw
      exact ⟨i, by simp only [at_, hat, Option.bind_some]; exact hi, hpick⟩
    · rintro ⟨i, hat, hpick⟩
      obtain ⟨w, hw, hi⟩ := Option.bind_eq_some_iff.1 hat
      exact ⟨(x.2, w), mem_of_lookupSlot hw, pickedDeadline_eq_some.2 ⟨rfl, i, hi, hpick⟩⟩
  rw [slotsByDeadline_eq]
  refine ⟨fun slot => ?_, List.pairwise_map.2 (hordered.imp_of_mem fun {a b} ha hb hab => ?_)⟩
  · rw [List.mem_map, Option.any_eq_true]
    constructor
    · rintro ⟨x, hx, rfl⟩
      obtain ⟨i, hi, hpick, -⟩ := (hmem x).1 hx
      exact ⟨i, hi, hpick⟩
    · rintro ⟨i, hi, hpick⟩
      exact ⟨(i.deadline, slot), (hmem (i.deadline, slot)).2 ⟨i, hi, hpick, rfl⟩, rfl⟩
  · obtain ⟨i, hi, -, hdi⟩ := (hmem a).1 ha
    obtain ⟨j, hj, -, hdj⟩ := (hmem b).1 hb
    have hda : deadline a.2 = a.1 := by simp only [deadline, hi, Option.elim_some]; exact hdi
    have hdb : deadline b.2 = b.1 := by simp only [deadline, hj, Option.elim_some]; exact hdj
    rw [hda, hdb]
    exact hab

/-! ### The first deadline and the first waiting closing -/

theorem firstDeadline_nil {s : State} (h : slotsByDeadline (·.due) s = []) : firstDeadline s = s := by
  unfold firstDeadline
  rw [h]

theorem firstDeadline_cons {s : State} {slot : Nat} {rest : List Nat}
    (h : slotsByDeadline (·.due) s = slot :: rest) : firstDeadline s = actOnDeadline slot s := by
  unfold firstDeadline
  rw [h]

theorem serveClosing_nil {s : State} (h : waitingSlots s = []) : serveClosing s = s := by
  unfold serveClosing
  rw [h]
  exact ite_self _

theorem serveClosing_cons {s : State} {slot : Nat} {rest : List Nat} (h : waitingSlots s = slot :: rest)
    (hr : s.regs.run = .running) (hroom : hasRoom s = true) (hwithdraw : withdrawWaits s = false) :
    serveClosing s = autoClose slot .deadline s := by
  unfold serveClosing
  rw [h]
  exact if_pos ⟨hr, hroom, hwithdraw⟩

/-- Where the gates do not run a deadline is left for the entry to RUNNING (R114). -/
theorem actOnDeadline_of_no_gates {slot : Nat} {s : State} {w : Worker} {i : OpenInterval}
    (hg : gatesRun s = false) (hw : workerAt s slot = some w) (hi : w.interval = some i) :
    actOnDeadline slot s = setWorker slot { w with interval := some { i with due := false } } s := by
  have hgates : gatesRun (setWorker slot { w with interval := some { i with due := false } } s) = false :=
    hg
  unfold actOnDeadline
  dsimp only
  rw [modInterval_eq _ hw hi, hgates]
  rfl

theorem deadlineActed_of_grant {slot : Nat} {s : State} (w : Worker) (i : OpenInterval)
    (hgrant : grantNames s slot = true) :
    deadlineActed slot w i s = setWorker slot { w with interval := some { i with due := false } } s :=
  if_pos hgrant

theorem deadlineActed_of_no_room {slot : Nat} {s : State} (w : Worker) (i : OpenInterval)
    (hgrant : grantNames s slot = false) (hroom : hasRoom s = false) :
    deadlineActed slot w i s
      = setWorker slot { w with interval := some { i with due := false, waiting := true } } s := by
  unfold deadlineActed
  rw [hgrant, hroom]
  rfl

theorem deadlineActed_of_room {slot : Nat} {s : State} (w : Worker) (i : OpenInterval)
    (hgrant : grantNames s slot = false) (hroom : hasRoom s = true) :
    deadlineActed slot w i s = autoClosed slot .deadline w { i with due := false } s := by
  unfold deadlineActed
  rw [hgrant, hroom]
  rfl

/-- A closing touches the record of its worker alone (R112). -/
theorem autoClosed_table (slot : Nat) (cause : CloseCause) (w : Worker) (i : OpenInterval) (s : State) :
    (autoClosed slot cause w i s).table = { s.table with
      workers := putSlot slot (closing s.cal s.pay w i none).1 s.table.workers } :=
  (handOver_linkOnly _ _ _ _).table

theorem exec_deadlineReached (s : State) : exec .deadlineReached s = .next (firstDeadline s) := rfl

theorem exec_waitingClosingServed (s : State) :
    exec .waitingClosingServed s = .next (serveClosing s) := rfl

/-- Settles O52, by the order of the list of deadlines and the branches of a deadline acted on. -/
theorem deadlinesCloseIntervals : Obligations.DeadlinesCloseIntervals := by
  unfold Obligations.DeadlinesCloseIntervals
  intro s
  rw [exec_deadlineReached, exec_waitingClosingServed]
  refine ⟨fun pick hs => slotsByDeadline_ordered pick hs,
    fun h => congrArg _ (firstDeadline_nil h), fun h => congrArg _ (serveClosing_nil h),
    fun slot w i rest hw hi => ⟨fun hfirst => ?_, fun hfirst hr hroom hwithdraw => ?_⟩⟩
  · rw [firstDeadline_cons hfirst]
    refine ⟨fun h => congrArg _ ?_, fun hg hgrant hroom => congrArg _ ?_,
      fun hg hgrant hroom => congrArg _ ?_⟩
    · by_cases hg : gatesRun s = true
      · have hgrant : grantNames s slot = true := h.resolve_left (by rw [hg]; decide)
        exact (actOnDeadline_eq hg hw hi).trans (deadlineActed_of_grant w i hgrant)
      · exact actOnDeadline_of_no_gates (Bool.eq_false_of_not_eq_true hg) hw hi
    · exact (actOnDeadline_eq hg hw hi).trans (deadlineActed_of_no_room w i hgrant hroom)
    · exact (actOnDeadline_eq hg hw hi).trans (deadlineActed_of_room w i hgrant hroom)
  · rw [serveClosing_cons hfirst hr hroom hwithdraw, autoClose_eq .deadline hw hi]
    exact ⟨rfl, autoClosed_table slot .deadline w i s⟩

end Sys2Proof.Machine
end


section
/-! CERTIFICATE. The lapses that a fire or a HALT makes, in door order, and the assertion of the fire
input (R153, R177). -/

namespace Sys2Proof.Machine

/-! ### Grants that lapse in turn -/

/-- A grant's end leaves the worker of a slot alone: the gates do not run, or its deadline is ahead. -/
def Calm (s : State) (slot : Nat) : Prop :=
  gatesRun s = false ∨
    ∀ w i, workerAt s slot = some w → w.interval = some i → s.clock.now.sec < i.deadline

theorem afterGrant_of_calm {s : State} {slot : Nat} (h : Calm s slot) : afterGrant slot s = s := by
  unfold afterGrant
  cases hw : workerAt s slot with
  | none => rfl
  | some w =>
    cases hi : w.interval with
    | none => simp only [hi]
    | some i =>
      have hdeadline : (gatesRun s && decide (i.deadline ≤ s.clock.now.sec)) = false := by
        obtain hg | hd := h
        · simp [hg]
        · have := hd w i hw hi
          simp only [Bool.and_eq_false_iff, decide_eq_false_iff_not]
          omega
      simp only [hi, hdeadline]
      rfl

theorem Calm.congr {s t : State} {slot : Nat} (h : Calm s slot) (hclock : t.clock = s.clock)
    (htable : t.table = s.table) (hgates : gatesRun t = gatesRun s) : Calm t slot := by
  unfold Calm
  rw [hgates, hclock, workerAt_congr htable]
  exact h

/-- The LAPSED record of the grant that a door holds in `s`, handed over in `u` (R80). -/
def lapseTold (cause : LapseCause) (s u : State) (d : DoorNo) : State :=
  s.doors[d].grant.elim u fun g => handOver true s.clock.now
    (.lapsed g.slot ((workerAt s g.slot).elim 0 (·.badge)) d g.line g.inward g.kind cause g.time) u

/-- The lapses of a list of doors make their records of `s` in that order, and no more of the journal. -/
theorem foldl_lapseGrant (cause : LapseCause) {s : State} :
    ∀ (l : List DoorNo) {u v : State}, l.Nodup → SameJournal v u → u.table = s.table →
      u.clock = s.clock → (∀ d ∈ l, u.doors[d] = s.doors[d]) →
      (∀ d ∈ l, ∀ g, s.doors[d].grant = some g → Calm u g.slot) →
      SameJournal (l.foldl (lapseTold cause s) v) (l.foldl (fun s d => lapseGrant d cause s) u) ∧
        (l.foldl (fun s d => lapseGrant d cause s) u).table = s.table
  | [], _, _, _, hj, htable, _, _, _ => ⟨hj, htable⟩
  | d :: rest, u, v, hnodup, hj, htable, hclock, hdoors, hcalm => by
    obtain ⟨hnot, hrest⟩ := List.nodup_cons.1 hnodup
    have hframe := lapseGrant_frame d cause u
    have hone : SameJournal (lapseTold cause s v d) (lapseGrant d cause u) ∧
        (lapseGrant d cause u).table = s.table := by
      unfold lapseTold
      have hd : u.doors[d].grant = s.doors[d].grant := by rw [hdoors d List.mem_cons_self]
      cases hg : s.doors[d].grant with
      | none =>
        rw [lapseGrant_none (hd.trans hg)]
        exact ⟨hj, htable⟩
      | some g =>
        have hdrop : LinkOnly (dropReservation g.target (modDoor d (fun e => { e with grant := none }) u))
          (handOver true u.clock.now
            (.lapsed g.slot ((workerAt u g.slot).elim 0 (·.badge)) d g.line g.inward g.kind cause g.time)
            (dropReservation g.target (modDoor d (fun e => { e with grant := none }) u))) :=
          handOver_linkOnly _ _ _ _
        have hcalmed := (hcalm d List.mem_cons_self g hg).congr
          (hdrop.clock.trans (modZone_clock _ _ _)) (hdrop.table.trans (modZone_table _ _ _))
          (hdrop.gatesRun.trans (gatesRun_congr (modZone_regs _ _ _)))
        have heq : lapseGrant d cause u = handOver true u.clock.now
            (.lapsed g.slot ((workerAt u g.slot).elim 0 (·.badge)) d g.line g.inward g.kind cause g.time)
            (dropReservation g.target (modDoor d (fun e => { e with grant := none }) u)) := by
          unfold lapseGrant
          rw [hd.trans hg]
          exact afterGrant_of_calm hcalmed
        have hjd : SameJournal v
            (dropReservation g.target (modDoor d (fun e => { e with grant := none }) u)) :=
          hj.trans ⟨by simp [dropReservation], by simp [dropReservation], by simp [dropReservation],
            by simp [dropReservation], by simp [dropReservation], by simp [dropReservation]⟩
        rw [heq, hclock, workerAt_congr htable]
        exact ⟨handOver_sameJournal hjd _ _ _,
          (handOver_linkOnly _ _ _ _).table.trans ((modZone_table _ _ _).trans htable)⟩
    rw [List.foldl_cons, List.foldl_cons]
    refine foldl_lapseGrant cause rest hrest hone.1 hone.2 (hframe.clock.trans hclock)
      (fun k hk => ?_) fun k hk g hg => ?_
    · have hne : d.val ≠ k.val := fun h => hnot (Fin.ext h ▸ hk)
      rw [← hdoors k (List.mem_cons_of_mem d hk), (lapseGrant_doorStep d cause u).doors]
      simp [hne]
    · exact (hcalm k (List.mem_cons_of_mem d hk) g hg).congr hframe.clock
        (hone.2.trans htable.symm) hframe.gates

theorem allDoors_eq : allDoors = List.finRange 12 := by decide

theorem mapDoors_sameJournal (f : Door → Door) (s : State) : SameJournal s (mapDoors f s) :=
  ⟨rfl, rfl, rfl, rfl, rfl, rfl⟩

theorem mapDoors_lapseFrame (f : Door → Door) (s : State) : LapseFrame s (mapDoors f s) :=
  ⟨rfl, rfl, rfl, rfl, rfl, rfl, rfl, rfl, rfl⟩

theorem mapDoors_serve (f : Door → Door) (s : State) : ServeStep s (mapDoors f s) :=
  ⟨rfl, rfl, rfl, rfl, rfl, rfl, rfl⟩

theorem settleDoors_journal (st : DoorState) (cause : LapseCause) (s : State) :
    SameJournal (forDoors (fun d s => lapseGrant d cause s) s) (settleDoors st cause s) ∧
      (settleDoors st cause s).table = (forDoors (fun d s => lapseGrant d cause s) s).table := by
  unfold settleDoors
  generalize forDoors (fun d s => lapseGrant d cause s) s = u
  exact ⟨mapDoors_sameJournal _ u, rfl⟩

/-- Every grant lapses in door order, and every door not in EGRESS enters a state: the journal holds the
LAPSED records of the grants, and the table stands. -/
theorem settleDoors_told (st : DoorState) (cause : LapseCause) {s u v : State} (hj : SameJournal v u)
    (htable : u.table = s.table) (hclock : u.clock = s.clock) (hdoors : u.doors = s.doors)
    (hcalm : ∀ (d : DoorNo) (g : Grant), s.doors[d].grant = some g → Calm u g.slot) :
    SameJournal ((List.finRange 12).foldl (lapseTold cause s) v) (settleDoors st cause u) ∧
      (settleDoors st cause u).table = s.table := by
  obtain ⟨hsame, htab⟩ := foldl_lapseGrant cause allDoors (by decide) hj htable hclock
    (fun d _ => by rw [hdoors]) fun d _ => hcalm d
  obtain ⟨hmap, hmaptab⟩ := settleDoors_journal st cause u
  rw [← allDoors_eq]
  exact ⟨hsame.trans hmap, hmaptab.trans htab⟩

theorem foldl_lapseGrant_frame (cause : LapseCause) : ∀ (l : List DoorNo) (s : State),
    LapseFrame s (l.foldl (fun s d => lapseGrant d cause s) s)
  | [], s => .refl s
  | d :: rest, s => (lapseGrant_frame d cause s).trans (foldl_lapseGrant_frame cause rest _)

theorem settleDoors_frame (st : DoorState) (cause : LapseCause) (s : State) :
    LapseFrame s (settleDoors st cause s) :=
  (foldl_lapseGrant_frame cause allDoors s).trans (mapDoors_lapseFrame _ _)

/-- A door's lapse clears no event flag. -/
theorem lapseGrant_flags (d : DoorNo) (cause : LapseCause) (s : State) (e : Event)
    (h : flagSet e s = true) : flagSet e (lapseGrant d cause s) = true := by
  unfold lapseGrant
  split
  · exact h
  · next g _ =>
    refine (afterGrant_punchStep _ _).flags e ((handOver_punchStep _ _ _ _).flags e ?_)
    unfold flagSet
    rw [show (dropReservation g.target (modDoor d (fun e => { e with grant := none }) s)).regs = s.regs
      from modZone_regs _ _ _]
    exact h

theorem foldl_lapseGrant_flags (cause : LapseCause) (e : Event) : ∀ (l : List DoorNo) (s : State),
    flagSet e s = true → flagSet e (l.foldl (fun s d => lapseGrant d cause s) s) = true
  | [], _, h => h
  | d :: rest, s, h => foldl_lapseGrant_flags cause e rest _ (lapseGrant_flags d cause s e h)

theorem settleDoors_flags (st : DoorState) (cause : LapseCause) (s : State) (e : Event)
    (h : flagSet e s = true) : flagSet e (settleDoors st cause s) = true := by
  have hregs := (settleDoors_journal st cause s).1.regs
  have hfold : flagSet e (forDoors (fun d s => lapseGrant d cause s) s) = true :=
    foldl_lapseGrant_flags cause e allDoors s h
  unfold flagSet at hfold ⊢
  rw [hregs]
  exact hfold

theorem foldl_lapseGrant_serve (cause : LapseCause) : ∀ (l : List DoorNo) {s : State},
    s.linkAnswers = [] → ServeStep s (l.foldl (fun s d => lapseGrant d cause s) s)
  | [], s, _ => .refl s
  | d :: rest, _, h =>
    let hone := lapseGrant_serve h d cause
    hone.trans (foldl_lapseGrant_serve cause rest (hone.answers.trans h))

theorem settleDoors_serve {s : State} (h : s.linkAnswers = []) (st : DoorState) (cause : LapseCause) :
    ServeStep s (settleDoors st cause s) := by
  have hfold : ServeStep s (forDoors (fun d s => lapseGrant d cause s) s) :=
    foldl_lapseGrant_serve cause allDoors h
  unfold settleDoors
  generalize forDoors (fun d s => lapseGrant d cause s) s = u at hfold
  exact hfold.trans (mapDoors_serve _ u)

/-- What an answer writes does not rest on the state beside the journal's. -/
theorem answered_sameJournal {s t : State} (h : SameJournal s t) (su : Setup) (n : Bool) (st : Status)
    (count resume : Option Nat) :
    SameJournal (answered su n st count resume s) (answered su n st count resume t) := by
  have hbare : SameJournal (answered su false st count resume s) (answered su false st count resume t) := by
    obtain ⟨hnow, hcapacity, hlink, hregs, hram, hanswers⟩ := h
    refine ⟨hnow, hcapacity, ?_, hregs, ?_, hanswers⟩
    · unfold answered
      dsimp only
      rw [hlink]
      rfl
    · unfold answered
      dsimp only
      rw [hlink, hram]
      rfl
  cases n with
  | false => exact hbare
  | true => exact raise_sameJournal hbare .workDone

end Sys2Proof.Machine
end


section
/-! CERTIFICATE. FIRE_ON (R153): the fire unit, the doors, the circuits, and the records in their
order. -/

namespace Sys2Proof.Machine

/-! ### The parts of an assertion -/

theorem tellFire_linkOnly (s : State) : LinkOnly { s with fire := alarmed s } (tellFire s) := by
  unfold tellFire
  dsimp only
  split
  · exact .refl _
  · exact (handOver_linkOnly _ _ _ _).trans (raise_linkOnly _ _)

theorem endFireCheck_linkOnly (s : State) : LinkOnly s (endFireCheck s) := by
  unfold endFireCheck
  split
  · exact endRequest_linkOnly _ _ _ _
  · exact .refl s

theorem alarmed_of_clearing {s : State} (h : s.regs.run = .clearing) : alarmed s = { s.fire with
    state := .alarm
    captured := some (if s.clock.valid = true then s.clock.now else ⟨0, 0⟩)
    musterPending := true
    deferred := some (if s.clock.valid = true then s.clock.now else ⟨0, 0⟩, grantCount s,
      s.fire.state == .hold) } := if_pos h

theorem alarmed_of_not_clearing {s : State} (h : s.regs.run ≠ .clearing) : alarmed s = { s.fire with
    state := .alarm
    captured := some (if s.clock.valid = true then s.clock.now else ⟨0, 0⟩)
    musterPending := true } := if_neg h

/-- The fire unit of an assertion, in every run state. -/
theorem alarmed_fields (s : State) : (alarmed s).state = .alarm ∧ (alarmed s).musterPending = true ∧
    (alarmed s).captured = some (if s.clock.valid = true then s.clock.now else ⟨0, 0⟩) ∧
    (alarmed s).evacMask = s.fire.evacMask := by
  by_cases h : s.regs.run = .clearing
  · rw [alarmed_of_clearing h]
    exact ⟨rfl, rfl, rfl, rfl⟩
  · rw [alarmed_of_not_clearing h]
    exact ⟨rfl, rfl, rfl, rfl⟩

/-- The FIRE_ON record and its event, as an assertion outside CLEARING makes them. -/
def fireTold (s : State) : State :=
  raise .fireOn (handOver false (if s.clock.valid = true then s.clock.now else ⟨0, 0⟩)
    (.fireOn s.regs.run (grantCount s) (s.fire.state == .hold)) s)

theorem tellFire_of_clearing {s : State} (h : s.regs.run = .clearing) :
    tellFire s = { s with fire := alarmed s } := if_pos h

theorem tellFire_of_not_clearing {s : State} (h : s.regs.run ≠ .clearing) :
    tellFire s = raise .fireOn (handOver false (if s.clock.valid = true then s.clock.now else ⟨0, 0⟩)
      (.fireOn s.regs.run (grantCount s) (s.fire.state == .hold)) { s with fire := alarmed s }) :=
  if_neg h

theorem fireTold_sameJournal {s : State} (h : s.regs.run ≠ .clearing) :
    SameJournal (fireTold s) (tellFire s) := by
  rw [tellFire_of_not_clearing h]
  have hset : SameJournal s { s with fire := alarmed s } := ⟨rfl, rfl, rfl, rfl, rfl, rfl⟩
  exact raise_sameJournal (handOver_sameJournal hset _ _ _) _

theorem tellFire_flag {s : State} (h : s.regs.run ≠ .clearing) : flagSet .fireOn (tellFire s) = true := by
  rw [tellFire_of_not_clearing h]
  have hover := handOver_linkOnly false (if s.clock.valid = true then s.clock.now else ⟨0, 0⟩)
    (.fireOn s.regs.run (grantCount s) (s.fire.state == .hold)) { s with fire := alarmed s }
  exact flagSet_raise_same (fun hc => h (hover.clearing_iff.1 hc)) _

theorem tellFire_serve {s : State} (h : s.linkAnswers = []) : ServeStep s (tellFire s) := by
  have hset : ServeStep s { s with fire := alarmed s } := serveStep_of_eq rfl rfl rfl
  unfold tellFire
  dsimp only
  split
  · exact hset
  · have hover := hset.trans (handOver_serve (hset.answers.trans h) false
      (if s.clock.valid then s.clock.now else ⟨0, 0⟩)
      (.fireOn s.regs.run (grantCount s) (s.fire.state == .hold)))
    exact hover.trans (raise_serve _ _)

/-! ### The assertion as a whole -/

/-- An assertion up to the circuits. -/
def doorsEvacuated (s : State) : State := endFireCheck (settleDoors .egress .fire (tellFire s))

theorem assertFire_of_no_alarm {s : State} (h : s.fire.state ≠ .alarm) : assertFire s =
    forCircuits s.fire.evacMask Circuit.startEvac (doorsEvacuated s) := by
  rw [assertFire_eq, if_neg h, egressDoors_eq, doorsEvacuated]

theorem doorsEvacuated_frame (s : State) :
    LapseFrame { s with fire := alarmed s } (doorsEvacuated s) := by
  have htold := tellFire_linkOnly s
  have hset := settleDoors_frame .egress .fire (tellFire s)
  have hend := endFireCheck_linkOnly (settleDoors .egress .fire (tellFire s))
  have told : LapseFrame { s with fire := alarmed s } (tellFire s) :=
    ⟨htold.clock, htold.mode, htold.cal, htold.lines, htold.pay, htold.bells, htold.fire,
      congrArg WorkerTable.index htold.table, htold.gatesRun⟩
  exact (told.trans hset).trans ⟨hend.clock, hend.mode, hend.cal, hend.lines, hend.pay, hend.bells,
    hend.fire, congrArg WorkerTable.index hend.table, hend.gatesRun⟩

theorem doorsEvacuated_door (s : State) (d : DoorNo) : (doorsEvacuated s).doors[d] =
    settledDoor s.mode.rehearsal .egress s.doors[d].letGo := by
  have htold := tellFire_linkOnly s
  rw [doorsEvacuated, (endFireCheck_linkOnly _).doors, (settleDoors_spec .egress .fire _).2 d,
    htold.doors, htold.mode]

/-- A door put in a state after its grant has lapsed, or left in EGRESS (R102, R177). -/
theorem settledDoor_letGo (r : Bool) (st : DoorState) (e : Door) :
    let x := settledDoor r st e.letGo
    x.grant = none ∧ x.mark = e.mark ∧ x.contact = e.contact ∧
      (e.state = .egress → x.state = .egress) ∧
      (e.state ≠ .egress → x.state = st ∧ x.cmd = (if r = true ∧ st ≠ .egress then .locked else relayOf st) ∧
        x.release = none ∧ x.held = none ∧ x.alarmStart = none) := by
  intro x
  by_cases h : e.state = .egress
  · have hx : x = e.letGo := if_pos h
    rw [hx]
    exact ⟨rfl, rfl, rfl, fun _ => h, fun hne => absurd h hne⟩
  · have hx : x = enter r st e.letGo := if_neg h
    rw [hx]
    exact ⟨by simp [Door.letGo], by simp [Door.letGo], by simp [Door.letGo], fun hs => absurd hs h,
      fun _ => ⟨by simp, enter_cmd r st _, by simp, by simp, by simp⟩⟩

theorem doorsEvacuated_flag {s : State} (h : s.regs.run ≠ .clearing) :
    flagSet .fireOn (doorsEvacuated s) = true := by
  have hset := settleDoors_flags .egress .fire _ .fireOn (tellFire_flag h)
  unfold doorsEvacuated endFireCheck
  split
  · exact (endRequest_linkStep _ _ _ _).flags _ hset
  · exact hset

/-- In CLEARING a lapse makes no record. -/
theorem foldl_lapseTold_clearing (cause : LapseCause) (s : State) : ∀ (l : List DoorNo) {u : State},
    u.regs.run = .clearing → l.foldl (lapseTold cause s) u = u
  | [], _, _ => rfl
  | d :: rest, u, h => by
    have hone : lapseTold cause s u d = u := by
      unfold lapseTold
      cases s.doors[d].grant with
      | none => rfl
      | some g => exact handOver_clearing h _ _ _
    rw [List.foldl_cons, hone]
    exact foldl_lapseTold_clearing cause s rest h

theorem endFireCheck_clearing {s : State} (h : s.regs.run = .clearing) :
    (endFireCheck s).link.queue = s.link.queue ∧ (endFireCheck s).regs = s.regs := by
  have hpend : ∀ u : State, u = pendReturn .fireActive none none s →
      u.link.queue = s.link.queue ∧ u.regs = s.regs := by
    rintro u rfl
    unfold pendReturn
    split <;> exact ⟨rfl, rfl⟩
  obtain ⟨hqueue, hregs⟩ := hpend _ rfl
  have hend : endRequest .fireActive none none s = pendReturn .fireActive none none s := by
    unfold endRequest
    dsimp only
    exact if_neg (by rw [hregs, h]; decide)
  unfold endFireCheck
  split
  · rw [hend]
    exact ⟨hqueue, hregs⟩
  · exact ⟨rfl, rfl⟩

theorem doorsEvacuated_clearing {s : State} (h : s.regs.run = .clearing) :
    (doorsEvacuated s).link.queue = s.link.queue ∧ (doorsEvacuated s).regs = s.regs := by
  have htell := tellFire_of_clearing h
  have hgates : gatesRun (tellFire s) = false := by
    rw [htell]
    simp [gatesRun, h]
  obtain ⟨hsame, -⟩ := settleDoors_told .egress .fire (s := s) (v := s) (u := tellFire s)
    (by rw [htell]; exact ⟨rfl, rfl, rfl, rfl, rfl, rfl⟩) (by rw [htell]) (by rw [htell])
    (by rw [htell]) fun _ _ _ => .inl hgates
  rw [foldl_lapseTold_clearing .fire s _ h] at hsame
  obtain ⟨hqueue, hregs⟩ := endFireCheck_clearing (s := settleDoors .egress .fire (tellFire s))
    (by rw [hsame.regs]; exact h)
  unfold doorsEvacuated
  rw [hqueue, hregs, hsame.link, hsame.regs]
  exact ⟨rfl, rfl⟩

/-! ### The records of an assertion -/

theorem settled_told {s : State} (hc : s.regs.run ≠ .clearing)
    (hahead : ∀ (d : DoorNo) (g : Grant) (w : Worker) (i : OpenInterval), s.doors[d].grant = some g →
      workerAt s g.slot = some w → w.interval = some i → s.clock.now.sec < i.deadline) :
    SameJournal ((List.finRange 12).foldl (lapseTold .fire s) (fireTold s))
        (settleDoors .egress .fire (tellFire s)) ∧
      (settleDoors .egress .fire (tellFire s)).table = s.table := by
  have htold := tellFire_linkOnly s
  refine settleDoors_told .egress .fire (fireTold_sameJournal hc) htold.table htold.clock htold.doors
    fun d g hg => .inr fun w i hw hi => ?_
  rw [htold.clock]
  rw [workerAt_congr htold.table] at hw
  exact hahead d g w i hg hw hi

theorem handOver_request (reserved : Bool) (t : Stamp) (b : RecordBody) (s : State) :
    (handOver reserved t b s).link.request = s.link.request := by
  have hself := handOver_beside s s.link.request reserved t b s
  rw [← (SameJournal.refl s).eq_beside] at hself
  rw [hself]
  rfl

theorem foldl_lapseTold_request (cause : LapseCause) (s : State) : ∀ (l : List DoorNo) (u : State),
    (l.foldl (lapseTold cause s) u).link.request = u.link.request
  | [], _ => rfl
  | d :: rest, u => by
    have hone : (lapseTold cause s u d).link.request = u.link.request := by
      unfold lapseTold
      cases s.doors[d].grant with
      | none => rfl
      | some g => exact handOver_request _ _ _ _
    exact (foldl_lapseTold_request cause s rest _).trans hone

theorem fireTold_request (s : State) : (fireTold s).link.request = s.link.request := by
  rw [fireTold, raise_link, handOver_request]

theorem checkRuns_congr {s t : State} (h : t.link.request = s.link.request) :
    checkRuns t = checkRuns s := by
  unfold checkRuns
  rw [h]

/-- What of the journal and the table an assertion leaves, in the words of the statements. -/
theorem doorsEvacuated_told {s : State} (hc : s.regs.run ≠ .clearing)
    (hahead : ∀ (d : DoorNo) (g : Grant) (w : Worker) (i : OpenInterval), s.doors[d].grant = some g →
      workerAt s g.slot = some w → w.interval = some i → s.clock.now.sec < i.deadline) :
    let lapsed := (List.finRange 12).foldl (lapseTold .fire s) (fireTold s)
    (doorsEvacuated s).table = s.table ∧
    (checkRuns s = false → SameJournal lapsed (doorsEvacuated s)) ∧
    ∀ (n : Nat) (notify : Bool) (su : Setup), s.regs.run = .running → s.linkAnswers = [] →
      s.link.setup = some su → s.link.request = some ⟨.clearFault n, notify, .checking, 0, 0⟩ →
      SameJournal (answered su notify .fireActive none none lapsed) (doorsEvacuated s) := by
  intro lapsed
  obtain ⟨hsame, htable⟩ := settled_told hc hahead
  have hrequest : (settleDoors .egress .fire (tellFire s)).link.request = s.link.request := by
    rw [hsame.link, foldl_lapseTold_request, fireTold_request]
  have hchecks := checkRuns_congr hrequest
  refine ⟨(endFireCheck_linkOnly _).table.trans htable, fun hcheck => ?_, fun n notify su hr ha hsu hq => ?_⟩
  · have hend : endFireCheck (settleDoors .egress .fire (tellFire s))
        = settleDoors .egress .fire (tellFire s) := if_neg (by rw [hchecks, hcheck]; decide)
    rw [doorsEvacuated, hend]
    exact hsame
  · have hcheck : checkRuns s = true := by
      unfold checkRuns
      rw [hq]
      rfl
    have htold := tellFire_serve ha
    have hserve := htold.trans (settleDoors_serve (htold.answers.trans ha) .egress .fire)
    have hend : endFireCheck (settleDoors .egress .fire (tellFire s))
        = answered su notify .fireActive none none (settleDoors .egress .fire (tellFire s)) :=
      (if_pos (hchecks.trans hcheck)).trans (endRequest_returns (hserve.run.trans hr)
        (hserve.answers.trans ha) (hserve.setup.trans hsu) (hserve.request.trans hq) _ _ _)
    rw [doorsEvacuated, hend]
    exact answered_sameJournal hsame su notify .fireActive none none

/-! ### The statement -/

theorem exec_fireOn (s : State) : exec .fireOn s = .next (assertFire s) := rfl

theorem startEvac_eq (c : Circuit) : c.startEvac = if c.isEvac = false then .evacuate 0 else c := by
  cases c <;> rfl

/-- Settles O56, by the frame, the doors and the records of an assertion up to its circuits. -/
theorem fireOnReleasesEveryDoor : Obligations.FireOnReleasesEveryDoor := by
  unfold Obligations.FireOnReleasesEveryDoor
  intro s
  rw [exec_fireOn]
  refine ⟨fun h => congrArg Host.Outcome.next (if_pos h), fun h => ?_⟩
  have hfields := alarmed_fields s
  have hframe := doorsEvacuated_frame s
  have hdoors := doorsEvacuated_door s
  have hflag := doorsEvacuated_flag (s := s)
  have hclearing := doorsEvacuated_clearing (s := s)
  have htold := doorsEvacuated_told (s := s)
  have hcircuit := forCircuits_circuit s.fire.evacMask Circuit.startEvac (doorsEvacuated s)
  rw [assertFire_of_no_alarm h, forCircuits_eq]
  generalize (forCircuits s.fire.evacMask Circuit.startEvac (doorsEvacuated s)).bells.circuits = circuits
    at hcircuit ⊢
  generalize doorsEvacuated s = u at hframe hdoors hflag hclearing htold hcircuit ⊢
  have hfire : u.fire = alarmed s := hframe.fire
  have hbells : u.bells = s.bells := hframe.bells
  rw [← hfire] at hfields
  obtain ⟨hstate, hpending, hcaptured, hmask⟩ := hfields
  refine ⟨_, rfl, hstate, hpending, hcaptured, hmask, fun hc => ⟨hflag hc, ?_⟩,
    fun hc => ⟨(hclearing hc).1, (hclearing hc).2, ?_⟩, fun hc hahead => ?_, fun d => ?_, fun c => ?_,
    hframe.clock, hframe.mode, hframe.cal, hframe.lines, hframe.pay, hframe.index⟩
  · exact (congrArg FireUnit.deferred hfire).trans (by rw [alarmed_of_not_clearing hc])
  · exact (congrArg FireUnit.deferred hfire).trans (by rw [alarmed_of_clearing hc])
  · obtain ⟨htable, hquiet, hended⟩ := htold hc hahead
    refine ⟨fun hcheck => ?_, fun n notify su hr ha _ hsu hq => ?_⟩
    · have hsame := hquiet hcheck
      exact ⟨hsame.link, hsame.ram, hsame.regs, htable⟩
    · have hsame := hended n notify su hr ha hsu hq
      exact ⟨hsame.link, hsame.ram, hsame.regs, htable⟩
  · obtain ⟨hgrant, hmark, hcontact, hstays, henters⟩ := settledDoor_letGo s.mode.rehearsal .egress s.doors[d]
    rw [← hdoors d] at hgrant hmark hcontact hstays henters
    refine ⟨?_, hgrant, hmark, hcontact, fun hne => ?_⟩
    · by_cases hs : s.doors[d].state = .egress
      · exact hstays hs
      · exact (henters hs).1
    · obtain ⟨-, hcmd, hrelease, hheld, halarm⟩ := henters hne
      exact ⟨hcmd.trans (if_neg fun hr => hr.2 rfl), hrelease, hheld, halarm⟩
  · refine (hcircuit c).trans ?_
    rw [hbells, startEvac_eq]
    by_cases hm : s.fire.evacMask.getLsbD c.val = true
    · rw [if_pos hm]
      simp [hm]
    · rw [if_neg hm, if_neg fun hand => hm hand.1]

end Sys2Proof.Machine
end


section
/-! CERTIFICATE. The requests that write output: STATEMENT, its copies, READ_STATUS, and the writes of the
held records (R132 to R135, R168, R169). -/

namespace Sys2Proof.Machine

/-! ### The take -/

/-- A request in progress ends with an answer, whatever its stage. -/
theorem ReadyFor.endRequest {s : State} {su : Setup} (h : ReadyFor s su) (q : Request) (st : Status)
    (count resume : Option Nat) :
    endRequest st count resume (withRequest (some q) s) = answered su q.notify st count resume s :=
  (endRequest_returns (s := withRequest (some q) s) (q := q) h.running h.answers h.setup rfl st count
    resume).trans (answered_withRequest su q.notify st count resume (some q) s)

theorem outputTest_of_bad {out : OutArea} (h : out.addr = 0 ∨ out.cap = 0) :
    outputTest out = some .noOutput := if_pos h

theorem outputTest_of_misaligned {out : OutArea} (h : ¬(out.addr = 0 ∨ out.cap = 0))
    (halign : out.addr.toNat % 4 ≠ 0) : outputTest out = some .range :=
  (if_neg h).trans (if_pos halign)

theorem outputTest_of_good {out : OutArea} (h : ¬(out.addr = 0 ∨ out.cap = 0))
    (halign : out.addr.toNat % 4 = 0) : outputTest out = none :=
  (if_neg h).trans (if_neg fun hne => hne halign)

section Take

variable {first last : Nat} {out : OutArea}

theorem takeStatement_of_range (s : State) (h : last < first ∨ slotInRange s last = false) :
    takeStatement first last out s = endRequest .range (some 0) none s := if_pos h

theorem takeStatement_of_test {s : State} (h : ¬(last < first ∨ slotInRange s last = false)) {st : Status}
    (htest : outputTest out = some st) :
    takeStatement first last out s = endRequest st (some 0) none s := by
  unfold takeStatement
  rw [htest]
  exact if_neg h

theorem takeStatement_of_pass {s : State} (h : ¬(last < first ∨ slotInRange s last = false))
    (htest : outputTest out = none) :
    takeStatement first last out s = statementStep (setProgress first 0 (setStage .output s)) := by
  unfold takeStatement
  rw [htest]
  exact if_neg h

end Take

/-! ### The next copy -/

section Step

variable {first last cursor written : Nat} {reset notify : Bool} {out : OutArea} {s : State}
  (hq : s.link.request = some ⟨.statement first last reset out, notify, .output, cursor, written⟩)
include hq

theorem statementStep_past (hnext : nextInUse s cursor last = none) :
    statementStep s = endRequest .done (some written) (some 0) s := by
  unfold statementStep
  rw [hq]
  dsimp only
  rw [hnext]

theorem statementStep_more {k : Nat} (hnext : nextInUse s cursor last = some k) (hcap : written ≠ out.cap) :
    statementStep s = s := by
  unfold statementStep
  rw [hq]
  dsimp only
  rw [hnext]
  exact if_neg hcap

theorem statementStep_full {k : Nat} (hnext : nextInUse s cursor last = some k) (hcap : written = out.cap) :
    statementStep s = endRequest .partial_ (some written) (some k) s := by
  unfold statementStep
  rw [hq]
  dsimp only
  rw [hnext]
  exact if_pos hcap

/-- A copy is made in RUNNING while no record is held (R133). -/
theorem nextCopy_eq {k : Nat} {w : Worker} (hr : s.regs.run = .running) (hout : s.link.output = none)
    (hnext : nextInUse s cursor last = some k) (hw : workerAt s k = some w) :
    nextCopy s = setProgress (k + 1) written (copyWorker k w reset s) := by
  unfold nextCopy
  rw [hq, hout]
  dsimp only
  rw [if_pos hr, hnext]
  dsimp only
  rw [hw]

end Step

theorem exec_statement (notify : Bool) (first last : Nat) (reset : Bool) (out : OutArea) (s : State) :
    exec (.statement notify first last reset out) s = .next
      (carryOut (.statement first last reset out) notify (takeStatement first last out) s) := rfl

theorem exec_statementCopy (s : State) : exec .statementCopy s = .next (nextCopy s) := rfl

/-- A STATEMENT that its tests refuse (R132). -/
theorem exec_statement_refused {s : State} {su : Setup} (h : ReadyFor s su) {notify reset : Bool}
    {first last : Nat} {out : OutArea} {st : Status}
    (hf : ∀ q, takeStatement first last out (withRequest q s)
      = endRequest st (some 0) none (withRequest q s)) :
    exec (.statement notify first last reset out) s = .next (answered su notify st (some 0) none s) := by
  rw [exec_statement, carryOut_acts h (.refl s) hf]

/-- A STATEMENT that passes its tests goes to its first copy, in the words of the model. -/
theorem exec_statement_passed {s : State} {su : Setup} (h : ReadyFor s su) {notify reset : Bool}
    {first last : Nat} {out : OutArea} (hrange : ¬(last < first ∨ slotInRange s last = false))
    (htest : outputTest out = none) :
    exec (.statement notify first last reset out) s = .next (statementStep
      (withRequest (some ⟨.statement first last reset out, notify, .output, first, 0⟩) s)) := by
  rw [exec_statement, carryOut_ready h]
  exact congrArg Host.Outcome.next
    (takeStatement_of_pass (s := beginRequest (.statement first last reset out) notify s) hrange htest)

theorem copyWorker_eq (k : Nat) (w : Worker) (reset : Bool) (s : State) :
    copyWorker k w reset s = holdOutput (.statement (statementRec s.pay s.clock.now k w reset))
      (setWorkers s (if reset = true then
        putSlot k { w with reg := 0, night := 0, ot := 0, hol := 0, saturated := false } s.table.workers
        else s.table.workers)) := by
  cases reset <;> rfl

/-- Settles O34, by the tests in their order and the step to the next in-use slot. -/
theorem statementCopiesInSlotOrder : Obligations.StatementCopiesInSlotOrder := by
  unfold Obligations.StatementCopiesInSlotOrder
  intro notify first last reset out s su areaBad c
  refine ⟨fun h => ⟨fun hrange => ?_, fun hle hlast hbad => ?_, fun hle hlast hgood halign => ?_,
    fun hle hlast hgood halign => ?_⟩, fun cursor written k w hr hout hq hnext hw => ?_⟩
  · exact exec_statement_refused h fun q => takeStatement_of_range (withRequest q s) hrange
  · have hrange : ¬(last < first ∨ slotInRange s last = false) := by simp [hle, hlast]
    exact exec_statement_refused h fun q =>
      takeStatement_of_test (s := withRequest q s) hrange (outputTest_of_bad hbad)
  · have hrange : ¬(last < first ∨ slotInRange s last = false) := by simp [hle, hlast]
    exact exec_statement_refused h fun q =>
      takeStatement_of_test (s := withRequest q s) hrange (outputTest_of_misaligned hgood halign)
  · have hrange : ¬(last < first ∨ slotInRange s last = false) := by simp [hle, hlast]
    have hpass := exec_statement_passed (notify := notify) (reset := reset) h hrange
      (outputTest_of_good hgood halign)
    have hcap : 0 ≠ out.cap := fun h0 => hgood (.inr h0.symm)
    let begun : Request := ⟨.statement first last reset out, notify, .output, first, 0⟩
    refine ⟨fun hnext => ?_, fun k hnext => ?_⟩
    · rw [hpass]
      exact congrArg Host.Outcome.next
        ((statementStep_past (s := withRequest (some begun) s) rfl hnext).trans (h.endRequest begun _ _ _))
    · rw [hpass]
      exact congrArg Host.Outcome.next
        (statementStep_more (s := withRequest (some begun) s) rfl hnext hcap)
  · rw [exec_statementCopy, nextCopy_eq hq hr hout hnext hw, copyWorker_eq]
    unfold setProgress holdOutput setStage setWorkers
    dsimp only
    rw [hq]
    rfl

/-! ### The write of a held record -/

/-- The state after the held record `o` of the request `q` has been written at its place. -/
def heldWritten (out : OutArea) (q : Request) (o : HeldOutput) (s : State) : State :=
  { s with
    ram := writeBytes s.ram out.addr (o.size * q.written) o.bytes
    link := { s.link with
      request := some { q with written := q.written + 1 }
      output := none } }

section Held

variable {s : State} {q : Request} {o : HeldOutput} {out : OutArea} (hr : s.regs.run = .running)
  (ha : s.linkAnswers = []) (hq : s.link.request = some q) (ho : s.link.output = some o)
  (harea : outputArea q.req = some out)
include hr ha hq ho harea

theorem writeHeld_other (hne : ∀ first last reset out', q.req ≠ .statement first last reset out') :
    writeHeld s = endRequest .done (some (q.written + 1)) none (heldWritten out q o s) := by
  unfold writeHeld
  rw [hq, ho]
  dsimp only
  rw [if_pos hr, harea]
  dsimp only
  rw [linkWrite_nil ha]
  dsimp only
  unfold heldWritten setProgress
  dsimp only
  rw [hq]
  split
  · next first last reset out' hreq => exact absurd hreq (hne first last reset out')
  · rfl

theorem writeHeld_statement {first last : Nat} {reset : Bool} {out' : OutArea}
    (hreq : q.req = .statement first last reset out') :
    writeHeld s = statementStep (heldWritten out q o s) := by
  unfold writeHeld
  rw [hq, ho]
  dsimp only
  rw [if_pos hr, harea]
  dsimp only
  rw [linkWrite_nil ha, hreq]
  unfold heldWritten setProgress
  dsimp only
  rw [hq]
  rfl

end Held

/-! ### The status snapshot -/

/-- A list spelled by pieces of `n` each holds piece `i` at place `n * i`. -/
theorem slice_flatMap {α β : Type} {f : α → List β} {n : Nat} (hf : ∀ x, (f x).length = n) :
    ∀ (l : List α) (i : Nat) (h : i < l.length), ((l.flatMap f).drop (n * i)).take n = f l[i]
  | x :: rest, 0, _ => by
    rw [List.flatMap_cons, Nat.mul_zero, List.drop_zero, ← hf x, List.take_left]
    rfl
  | x :: rest, i + 1, h => by
    have hx : n * (i + 1) = (f x).length + n * i := by rw [hf x, Nat.mul_succ, Nat.add_comm]
    rw [List.flatMap_cons, hx, List.drop_length_add_append]
    exact slice_flatMap hf rest i (Nat.lt_of_succ_lt_succ h)

theorem length_flatMap_const {α β : Type} {f : α → List β} {n : Nat} (hf : ∀ x, (f x).length = n)
    (l : List α) : (l.flatMap f).length = n * l.length := by
  rw [List.length_flatMap, List.map_congr_left fun x _ => hf x]
  simp [Nat.mul_comm]

theorem slice_append_left {α : Type} {a b : List α} {o n : Nat} (h : o + n ≤ a.length) :
    ((a ++ b).drop o).take n = (a.drop o).take n := by
  rw [List.drop_append_of_le_length (by omega), List.take_append_of_le_length (by simp; omega)]

theorem slice_append_right {α : Type} {a b : List α} {o n m : Nat} (h : m = a.length + o) :
    ((a ++ b).drop m).take n = (b.drop o).take n := by
  rw [h, List.drop_length_add_append]

/-- The first 30 bytes of the snapshot. -/
def snapshotHead (s : State) : List Byte :=
  le32 s.clock.now.sec ++ [byteOf s.clock.now.beat, byteOf s.regs.run.code, byteOf s.clock.sync.code,
    byteOf s.fire.state.code] ++
  (le16 (signed16 s.clock.rho) ++ le16 (signed16 s.clock.lastDev) ++ le16 (s.table.capacity.getD 0) ++
    [if s.clock.valid = true then 1 else 0, 0]) ++
  (le16 s.link.queue.length ++ le16 s.link.reserved ++ le16 (queueCap s) ++ le16 s.link.holdGap ++
    le16 s.link.lost) ++
  (le16 s.link.workPos ++ le16 s.link.journalPos)

theorem le16_bit (b : Bool) : le16 (bit b) = [if b = true then 1 else 0, 0] := by cases b <;> rfl

theorem length_snapshotHead (s : State) : (snapshotHead s).length = 30 := rfl

/-- The snapshot is its head, the doors, the zones, the lines and two bytes of 0. -/
theorem statusSnapshot_eq (s : State) : statusSnapshot s = snapshotHead s ++
    (s.doors.toList.flatMap Door.snapshot ++ (s.zones.toList.flatMap Zone.snapshot ++
      (s.lines.toList.flatMap Line.snapshot ++ [0, 0]))) := by
  have hdoors := length_flatMap_const (f := Door.snapshot) (n := 2) (fun _ => rfl) s.doors.toList
  have hzones := length_flatMap_const (f := Zone.snapshot) (n := 4) (fun _ => rfl) s.zones.toList
  have hlines := length_flatMap_const (f := Line.snapshot) (n := 4) (fun _ => rfl) s.lines.toList
  rw [Vector.length_toList] at hdoors hzones hlines
  unfold statusSnapshot snapshotHead padTo
  rw [le16_bit]
  generalize s.doors.toList.flatMap Door.snapshot = doors at hdoors ⊢
  generalize s.zones.toList.flatMap Zone.snapshot = zones at hzones ⊢
  generalize s.lines.toList.flatMap Line.snapshot = lines at hlines ⊢
  simp [stampBytes, le32, le16, hdoors, hzones, hlines]

/-- Each field of the snapshot stands at its place of R178. -/
theorem statusSnapshot_places (s : State) :
    let b := statusSnapshot s
    let at_ : Nat → Nat → List Byte := fun offset n => (b.drop offset).take n
    b.length = 212 ∧
    (∀ o n : Nat, o + n ≤ 30 → at_ o n = ((snapshotHead s).drop o).take n) ∧
    (∀ d : DoorNo, at_ (30 + 2 * d.val) 2 = s.doors[d].snapshot) ∧
    (∀ i : Fin 15, at_ (54 + 4 * i.val) 4 = s.zones[i].snapshot) ∧
    (∀ l : LineNo, at_ (114 + 4 * l.val) 4 = s.lines[l].snapshot) ∧
    at_ 210 2 = [0, 0] := by
  intro b at_
  have hdoors := length_flatMap_const (f := Door.snapshot) (n := 2) (fun _ => rfl) s.doors.toList
  have hzones := length_flatMap_const (f := Zone.snapshot) (n := 4) (fun _ => rfl) s.zones.toList
  have hlines := length_flatMap_const (f := Line.snapshot) (n := 4) (fun _ => rfl) s.lines.toList
  have hhead := length_snapshotHead s
  rw [Vector.length_toList] at hdoors hzones hlines
  have hdoor := slice_flatMap (f := Door.snapshot) (n := 2) (fun _ => rfl) s.doors.toList
  have hzone := slice_flatMap (f := Zone.snapshot) (n := 4) (fun _ => rfl) s.zones.toList
  have hline := slice_flatMap (f := Line.snapshot) (n := 4) (fun _ => rfl) s.lines.toList
  simp only [at_, b, statusSnapshot_eq]
  refine ⟨by simp [hdoors, hzones, hlines, hhead], fun o n ho => slice_append_left (hhead.symm ▸ ho),
    fun d => ?_, fun i => ?_, fun l => ?_, ?_⟩
  · have hd := d.isLt
    rw [slice_append_right (o := 2 * d.val) (by omega), slice_append_left (by omega),
      hdoor d.val (by simp)]
    simp
  · have hi := i.isLt
    rw [slice_append_right (o := 24 + 4 * i.val) (by omega),
      slice_append_right (o := 4 * i.val) (by omega), slice_append_left (by omega),
      hzone i.val (by simp)]
    simp
  · have hl := l.isLt
    rw [slice_append_right (o := 84 + 4 * l.val) (by omega),
      slice_append_right (o := 60 + 4 * l.val) (by omega),
      slice_append_right (o := 4 * l.val) (by omega), slice_append_left (by omega),
      hline l.val (by simp)]
    simp
  · rw [slice_append_right (o := 180) (by omega), slice_append_right (o := 156) (by omega),
      slice_append_right (o := 96) (by omega), slice_append_right (o := 0) (by omega)]
    rfl

/-! ### READ_STATUS and OUTPUT_WRITE_DONE -/

theorem exec_readStatus (notify : Bool) (out : OutArea) (s : State) :
    exec (.readStatus notify out) s
      = .next (carryOut (.readStatus out) notify (takeReadStatus out) s) := rfl

theorem exec_outputWriteDone (s : State) : exec .outputWriteDone s = .next (writeHeld s) := rfl

theorem takeReadStatus_of_test {out : OutArea} {st : Status} (h : outputTest out = some st) (s : State) :
    takeReadStatus out s = endRequest st (some 0) none s := by
  unfold takeReadStatus
  rw [h]

theorem takeReadStatus_of_pass {out : OutArea} (h : outputTest out = none) (s : State) :
    takeReadStatus out s = holdOutput (.snapshot (statusSnapshot s)) s := by
  unfold takeReadStatus
  rw [h]

theorem exec_readStatus_refused {s : State} {su : Setup} (h : ReadyFor s su) (notify : Bool)
    {out : OutArea} {st : Status} (htest : outputTest out = some st) :
    exec (.readStatus notify out) s = .next (answered su notify st (some 0) none s) := by
  rw [exec_readStatus, carryOut_acts h (.refl s) fun q => takeReadStatus_of_test htest (withRequest q s)]

/-- Settles O36, by the pieces of the snapshot and the three ends of a written record. -/
theorem outputIsWrittenInPlaceOrder : Obligations.OutputIsWrittenInPlaceOrder := by
  unfold Obligations.OutputIsWrittenInPlaceOrder
  refine ⟨fun s => ?_, fun notify out s su => ⟨fun h => ⟨fun hbad => ?_, fun haddr hcap halign => ?_,
    fun haddr hcap halign => ?_⟩, fun q o hr ha hret hsu hstage hq ho harea => ?_⟩⟩
  · obtain ⟨hlen, hhead, hdoors, hzones, hlines, hend⟩ := statusSnapshot_places s
    refine ⟨hlen, (hhead 0 8 (by omega)).trans rfl, (hhead 8 8 (by omega)).trans rfl,
      (hhead 16 10 (by omega)).trans rfl, (hhead 26 4 (by omega)).trans rfl, fun d => ?_, fun i => ?_,
      fun l => ?_, hend⟩
    · refine (hdoors d).trans ?_
      unfold Door.snapshot bit
      cases s.doors[d].mark <;> rfl
    · refine (hzones i).trans ?_
      unfold Zone.snapshot bit
      cases s.zones[i].present <;> rfl
    · refine (hlines l).trans ?_
      unfold Line.snapshot bit
      cases s.lines[l].tamper <;> rfl
  · exact exec_readStatus_refused h notify (outputTest_of_bad hbad)
  · exact exec_readStatus_refused h notify
      (outputTest_of_misaligned (fun hor => hor.elim haddr hcap) halign)
  · rw [exec_readStatus, carryOut_ready h,
      takeReadStatus_of_pass (outputTest_of_good (fun hor => hor.elim haddr hcap) halign)]
    rfl
  · intro written
    rw [exec_outputWriteDone]
    have hends (st : Status) (count resume : Option Nat) :
        endRequest st count resume written = answered su q.notify st count resume written :=
      endRequest_returns (s := written) (q := { q with written := q.written + 1 }) hr ha hsu rfl st count
        resume
    refine ⟨fun hne => ?_, fun first last reset hreq => ?_⟩
    · exact congrArg Host.Outcome.next ((writeHeld_other hr ha hq ho harea hne).trans (hends _ _ _))
    · have hstep := writeHeld_statement hr ha hq ho harea hreq
      have hrequest : written.link.request =
          some ⟨.statement first last reset out, q.notify, .output, q.cursor, q.written + 1⟩ := by
        rw [← hreq, ← hstage]
      refine ⟨fun hnext => ?_, fun k hnext => ⟨fun hcap => ?_, fun hcap => ?_⟩⟩
      · exact congrArg Host.Outcome.next
          (hstep.trans ((statementStep_past (s := written) hrequest hnext).trans (hends _ _ _)))
      · exact congrArg Host.Outcome.next
          (hstep.trans ((statementStep_full (s := written) hrequest hnext hcap).trans (hends _ _ _)))
      · exact congrArg Host.Outcome.next
          (hstep.trans (statementStep_more (s := written) hrequest hnext hcap))

end Sys2Proof.Machine
end


section
/-! CERTIFICATE. WITHDRAW with FORCE, and its resumption once a place is free (R36, R37). -/

namespace Sys2Proof.Machine

theorem dropSlot_putSlot (slot : Nat) (w : Worker) :
    ∀ l : List (Nat × Worker), dropSlot slot (putSlot slot w l) = dropSlot slot l
  | [] => by simp [putSlot, dropSlot]
  | (k, v) :: rest => by
    have ih := dropSlot_putSlot slot w rest
    unfold dropSlot at ih ⊢
    unfold putSlot
    by_cases hk : slot = k
    · rw [if_pos hk]
      simp [hk]
    · rw [if_neg hk]
      split
      · simp
      · simp [ih, Ne.symm hk]

theorem holdOutput_modZone (o : HeldOutput) (z : ZoneNo) (f : Zone → Zone) (s : State) :
    holdOutput o (modZone z f s) = modZone z f (holdOutput o s) := by
  unfold modZone
  split <;> rfl

/-- The statement record held and the slot freed, for the worker that stands there (R36). -/
theorem holdOutput_freeWorker {s : State} {slot : Nat} {w : Worker} (hw : workerAt s slot = some w)
    (o : HeldOutput) : holdOutput o (freeWorker slot s)
      = modZone w.location (fun z => { z with occupancy := z.occupancy - 1 })
          (holdOutput o { s with table := { s.table with
            workers := dropSlot slot s.table.workers
            index := dropBadge w.badge s.table.index } }) := by
  rw [freeWorker_of_used hw, holdOutput_modZone]

theorem forcedWithdraw_of_worker {s : State} {slot : Nat} {w : Worker}
    (hw : workerAt (autoClose slot .withdraw s) slot = some w) :
    forcedWithdraw slot s = holdOutput (.statement (statementRec (autoClose slot .withdraw s).pay
      (autoClose slot .withdraw s).clock.now slot w false)) (freeWorker slot (autoClose slot .withdraw s)) := by
  unfold forcedWithdraw
  dsimp only
  rw [hw]

theorem autoClose_of_off {s : State} {slot : Nat} {w : Worker} (hw : workerAt s slot = some w)
    (hi : w.interval = none) (cause : CloseCause) : autoClose slot cause s = s := by
  unfold autoClose
  rw [hw]
  dsimp only
  rw [hi]

/-- The forced withdrawal of an OFF worker (R36). -/
theorem forcedWithdraw_off {s : State} {slot : Nat} {w : Worker} (hw : workerAt s slot = some w)
    (hi : w.interval = none) (q : Request) :
    forcedWithdraw slot (withRequest (some q) s)
      = modZone w.location (fun z => { z with occupancy := z.occupancy - 1 }) { s with
          table := { s.table with
            workers := dropSlot slot s.table.workers, index := dropBadge w.badge s.table.index }
          link := { s.link with
            request := some { q with stage := .output }
            output := some (.statement (statementRec s.pay s.clock.now slot w false)) } } := by
  have hbegun : workerAt (withRequest (some q) s) slot = some w := hw
  have hclose := autoClose_of_off hbegun hi .withdraw
  rw [forcedWithdraw_of_worker (by rw [hclose]; exact hbegun), hclose, holdOutput_freeWorker hbegun]
  rfl

/-- The forced withdrawal of an ON worker: the closing, its statement record, the freed slot (R36). -/
theorem forcedWithdraw_on {s : State} {slot : Nat} {w : Worker} {i : OpenInterval}
    (hw : workerAt s slot = some w) (hi : w.interval = some i) (q : Request) :
    let closed := autoClosed slot .withdraw w i s
    forcedWithdraw slot (withRequest (some q) s)
      = modZone w.location (fun z => { z with occupancy := z.occupancy - 1 }) { closed with
          table := { s.table with
            workers := dropSlot slot s.table.workers, index := dropBadge w.badge s.table.index }
          link := { closed.link with
            request := some { q with stage := .output }
            output := some (.statement
              (statementRec s.pay s.clock.now slot (closing s.cal s.pay w i none).1 false)) } } := by
  intro closed
  have hclose : autoClose slot .withdraw (withRequest (some q) s) = withRequest (some q) closed := by
    rw [autoClose_withRequest, autoClose_eq .withdraw hw hi]
  have hlink := handOver_linkOnly false s.clock.now
    (.autoClose slot w.badge w.issue .withdraw w.location i (closing s.cal s.pay w i none).2)
    (setWorker slot (closing s.cal s.pay w i none).1 s)
  have htable : closed.table = { s.table with
      workers := putSlot slot (closing s.cal s.pay w i none).1 s.table.workers } :=
    autoClosed_table slot .withdraw w i s
  have hpay : closed.pay = s.pay := hlink.pay
  have hclock : closed.clock = s.clock := hlink.clock
  have hat : workerAt (withRequest (some q) closed) slot = some (closing s.cal s.pay w i none).1 := by
    rw [workerAt_withRequest]
    unfold workerAt
    rw [htable]
    exact lookupSlot_putSlot_same slot _ _
  have hrec : statementRec (withRequest (some q) closed).pay (withRequest (some q) closed).clock.now slot
      (closing s.cal s.pay w i none).1 false
      = statementRec s.pay s.clock.now slot (closing s.cal s.pay w i none).1 false := by
    rw [← hpay, ← hclock]
    rfl
  rw [forcedWithdraw_of_worker (by rw [hclose]; exact hat), hclose, holdOutput_freeWorker hat, hrec,
    show (withRequest (some q) closed).table = _ from htable, dropSlot_putSlot, closing_location,
    closing_badge]
  rfl

/-! ### The tests of a forced WITHDRAW -/

section Forced

variable {s : State} {slot : Nat} {w : Worker} {out : OutArea} (hrange : slotInRange s slot = true)
  (hw : workerAt s slot = some w) (hgrant : grantNames s slot = false)
include hrange hw hgrant

theorem withdrawTest_forced : withdrawTest s slot true out = outputTest out := by
  rw [withdrawTest_of_used hrange hw, hgrant]
  rfl

theorem exec_withdraw_forced_refused {su : Setup} (h : ReadyFor s su) (notify : Bool) {st : Status}
    (htest : outputTest out = some st) :
    exec (.withdraw notify slot true out) s = .next (answered su notify st (some 0) none s) :=
  exec_withdraw_refused h notify ((withdrawTest_forced hrange hw hgrant).trans htest)

/-- A forced WITHDRAW that passes its tests waits for a place or is carried out (R36, R37). -/
theorem exec_withdraw_forced {su : Setup} (h : ReadyFor s su) (notify : Bool)
    (htest : outputTest out = none) :
    exec (.withdraw notify slot true out) s = .next
      (if (w.interval.isSome && !hasRoom s) = true then
        withRequest (some ⟨.withdraw slot true out, notify, .deferred, 0, 0⟩) s
      else forcedWithdraw slot
        (withRequest (some ⟨.withdraw slot true out, notify, .taken, 0, 0⟩) s)) := by
  have hpass : withdrawTest (withRequest (some ⟨.withdraw slot true out, notify, .taken, 0, 0⟩) s) slot
      true out = none := (withdrawTest_forced hrange hw hgrant).trans htest
  have hon : isOn (withRequest (some ⟨.withdraw slot true out, notify, .taken, 0, 0⟩) s) slot
      = w.interval.isSome := by
    unfold isOn
    rw [workerAt_withRequest, hw]
    rfl
  have hroom : hasRoom (withRequest (some ⟨.withdraw slot true out, notify, .taken, 0, 0⟩) s)
      = hasRoom s := rfl
  rw [exec_withdraw, carryOut_ready h, beginRequest_eq]
  unfold takeWithdraw
  rw [hpass]
  dsimp only
  rw [hon, hroom, if_pos rfl]
  rfl

/-- A waiting WITHDRAW that finds a place is carried out (R37). -/
theorem serveWithdraw_passed (hr : s.regs.run = .running) (hroom : hasRoom s = true) {notify : Bool}
    (hq : s.link.request = some ⟨.withdraw slot true out, notify, .deferred, 0, 0⟩)
    (htest : outputTest out = none) : serveWithdraw s = forcedWithdraw slot s := by
  have hwaits : withdrawWaits s = true := by
    unfold withdrawWaits
    rw [hq]
    rfl
  have hresume : resumeWithdraw s = forcedWithdraw slot s := by
    unfold resumeWithdraw
    rw [hq]
    dsimp only
    rw [(withdrawTest_forced hrange hw hgrant).trans htest]
  exact (if_pos ⟨hr, hroom, hwaits⟩).trans hresume

end Forced

theorem exec_withdrawDeferredResume (s : State) :
    exec .withdrawDeferredResume s = .next (serveWithdraw s) := rfl

/-- Settles O31, by the forced withdrawal of an OFF and of an ON worker. -/
theorem forcedWithdrawSettlesAndFrees : Obligations.ForcedWithdrawSettlesAndFrees := by
  unfold Obligations.ForcedWithdrawSettlesAndFrees
  intro notify slot out s su w hrange hw hgrant freed
  have hgood (haddr : out.addr ≠ 0) (hcap : out.cap ≠ 0) : ¬(out.addr = 0 ∨ out.cap = 0) :=
    fun hor => hor.elim haddr hcap
  refine ⟨fun h => ⟨fun hbad => ?_, fun haddr hcap halign => ?_, fun haddr hcap halign hi => ?_,
    fun haddr hcap halign hi hroom => ?_⟩, fun i hroom hi haddr hcap halign => ?_⟩
  · exact exec_withdraw_forced_refused hrange hw hgrant h notify (outputTest_of_bad hbad)
  · exact exec_withdraw_forced_refused hrange hw hgrant h notify
      (outputTest_of_misaligned (hgood haddr hcap) halign)
  · rw [exec_withdraw_forced hrange hw hgrant h notify (outputTest_of_good (hgood haddr hcap) halign), hi]
    exact congrArg Host.Outcome.next (forcedWithdraw_off hw hi _)
  · rw [exec_withdraw_forced hrange hw hgrant h notify (outputTest_of_good (hgood haddr hcap) halign), hi,
      hroom]
    rfl
  · have htest := outputTest_of_good (hgood haddr hcap) halign
    refine ⟨fun h => ?_, fun hr hq => ?_⟩
    · rw [exec_withdraw_forced hrange hw hgrant h notify htest, hi, hroom]
      exact congrArg Host.Outcome.next (forcedWithdraw_on hw hi _)
    · have hself : withRequest (some ⟨.withdraw slot true out, notify, .deferred, 0, 0⟩) s = s := by
        rw [← hq, withRequest_self]
      have hforced := forcedWithdraw_on hw hi ⟨.withdraw slot true out, notify, .deferred, 0, 0⟩
      rw [hself] at hforced
      rw [exec_withdrawDeferredResume, serveWithdraw_passed hrange hw hgrant hr hroom hq htest]
      exact congrArg Host.Outcome.next hforced

end Sys2Proof.Machine
end


section
/-! SUPPORT. Accesses answered from a list, and the tables that a load reads: the entries in their order,
and the roster (R41, R162, R175). -/

namespace Sys2Proof.Machine

/-! ### Answers from a list -/

/-- The state after `n` accesses that were answered well. -/
def ticked (n : Nat) (s : State) : State := { s with linkAnswers := s.linkAnswers.drop n }

/-- The coming `n` accesses are answered well. -/
def AnsweredWell (n : Nat) (s : State) : Prop := ∀ b ∈ s.linkAnswers.take n, b = false

theorem ticked_zero (s : State) : ticked 0 s = s := rfl

theorem ticked_ticked (m n : Nat) (s : State) : ticked n (ticked m s) = ticked (m + n) s := by
  unfold ticked
  rw [List.drop_drop]

theorem ticked_nil {s : State} (h : s.linkAnswers = []) (n : Nat) : ticked n s = s := by
  unfold ticked
  rw [h, List.drop_nil, ← h]

theorem answeredWell_nil {s : State} (h : s.linkAnswers = []) (n : Nat) : AnsweredWell n s := by
  intro b hb
  rw [h, List.take_nil] at hb
  cases hb

theorem AnsweredWell.mono {m n : Nat} {s : State} (h : AnsweredWell n s) (hle : m ≤ n) :
    AnsweredWell m s := fun b hb => h b ((List.take_prefix_take_left hle).subset hb)

theorem AnsweredWell.ticked {m n : Nat} {s : State} (h : AnsweredWell (m + n) s) :
    AnsweredWell n (ticked m s) := by
  intro b hb
  refine h b ?_
  rw [show (Machine.ticked m s).linkAnswers = s.linkAnswers.drop m from rfl, List.take_drop] at hb
  exact List.mem_of_mem_drop hb

theorem linkAccess_well {s : State} (h : AnsweredWell 1 s) : linkAccess s = (true, ticked 1 s) := by
  obtain ⟨clock, mode, cal, table, lines, zones, doors, pay, bells, fire, link, regs, ram, answers,
    pending⟩ := s
  cases answers with
  | nil => rfl
  | cons b rest =>
    have hb : b = false := h b (by simp)
    subst hb
    rfl

theorem linkAccess_error {s : State} {rest : List Bool} (h : s.linkAnswers = true :: rest) :
    linkAccess s = (false, linkFail { s with linkAnswers := rest }) := by
  unfold linkAccess
  rw [h]

/-- An error after `n` good answers. -/
theorem failAfter_answeredWell (n : Nat) (s : State) : AnsweredWell n (failAfter n s) := by
  intro b hb
  have htake : (List.replicate n false ++ true :: s.linkAnswers).take n = List.replicate n false := by
    rw [List.take_append_of_le_length (by simp), List.take_of_length_le (by simp)]
  rw [failAfter, htake] at hb
  exact List.eq_of_mem_replicate hb

theorem ticked_failAfter (n : Nat) (s : State) :
    ticked n (failAfter n s) = { s with linkAnswers := true :: s.linkAnswers } := by
  have hdrop : (List.replicate n false ++ true :: s.linkAnswers).drop n = true :: s.linkAnswers := by
    rw [List.drop_append_of_le_length (by simp)]
    simp
  unfold ticked failAfter
  rw [hdrop]

/-! ### The entries of the tables -/

theorem readEntries_error {rest : List Bool} {e : EntryRead} (l : List EntryRead) : ∀ {k : Nat} {s : State},
    l[k]? = some e → (l.take k).all (·.fault.isNone) = true → AnsweredWell k s →
    (ticked k s).linkAnswers = true :: rest →
    readEntries l s = (some ⟨.link, e.table, e.entry⟩, linkFail { s with linkAnswers := rest }) := by
  induction l with
  | nil => intro k s he; cases he
  | cons x l ih =>
    intro k s he hall hwell herr
    unfold readEntries
    cases k with
    | zero =>
      rw [linkAccess_error (show s.linkAnswers = true :: rest from herr)]
      cases he
      rfl
    | succ k =>
      rw [List.take_succ_cons, List.all_cons, Bool.and_eq_true, Option.isNone_iff_eq_none] at hall
      rw [Nat.add_comm] at hwell herr
      rw [linkAccess_well (hwell.mono (by omega))]
      dsimp only
      rw [hall.1]
      rw [← ticked_ticked] at herr
      exact ih he hall.2 hwell.ticked herr

theorem readEntries_pass (l : List EntryRead) : ∀ {s : State},
    l.all (·.fault.isNone) = true → AnsweredWell l.length s →
    readEntries l s = (none, ticked l.length s) := by
  induction l with
  | nil => intros; rfl
  | cons x l ih =>
    intro s hall hwell
    rw [List.all_cons, Bool.and_eq_true, Option.isNone_iff_eq_none] at hall
    rw [List.length_cons, Nat.add_comm] at hwell ⊢
    unfold readEntries
    rw [linkAccess_well (hwell.mono (by omega))]
    dsimp only
    rw [hall.1, ← ticked_ticked]
    exact ih hall.2 hwell.ticked

theorem readEntries_fault {e : EntryRead} {code : LoadCode} {s : State} (ha : s.linkAnswers = [])
    (hcode : e.fault = some code) (l : List EntryRead) (hfind : l.find? (·.fault.isSome) = some e) :
    readEntries l s = (some ⟨code, e.table, e.entry⟩, s) := by
  induction l with
  | nil => cases hfind
  | cons x l ih =>
    unfold readEntries
    rw [linkAccess_nil ha]
    dsimp only
    rw [List.find?_cons] at hfind
    cases hx : x.fault with
    | none =>
      rw [hx] at hfind
      exact ih hfind
    | some c =>
      rw [hx] at hfind
      cases hfind
      rw [hx] at hcode
      cases hcode
      rfl

/-! ### The badge index -/

theorem lookupBadge_insertBadge_same {badge slot : Nat} : ∀ {l : List (Nat × Nat)},
    lookupBadge badge l = none → lookupBadge badge (insertBadge badge slot l) = some slot
  | [], _ => by simp [insertBadge, lookupBadge]
  | (b, k) :: rest, h => by
    unfold lookupBadge at h
    split at h
    · cases h
    · next hne =>
      have ih := lookupBadge_insertBadge_same (slot := slot) h
      unfold insertBadge
      split
      · simp [lookupBadge]
      · unfold lookupBadge
        rw [if_neg hne]
        exact ih

theorem lookupBadge_insertBadge_other {badge other slot : Nat} (hne : other ≠ badge) :
    ∀ l : List (Nat × Nat), lookupBadge other (insertBadge badge slot l) = lookupBadge other l
  | [] => by simp [insertBadge, lookupBadge, hne]
  | (b, k) :: rest => by
    have ih := lookupBadge_insertBadge_other (slot := slot) hne rest
    unfold insertBadge
    split
    · simp [lookupBadge, hne]
    · unfold lookupBadge
      split
      · rfl
      · exact ih

theorem length_insertBadge (badge slot : Nat) : ∀ l : List (Nat × Nat),
    (insertBadge badge slot l).length = l.length + 1
  | [] => rfl
  | (b, k) :: rest => by
    unfold insertBadge
    split
    · rfl
    · rw [List.length_cons, List.length_cons, length_insertBadge badge slot rest]

theorem length_putSlot_of_none {slot : Nat} {w : Worker} : ∀ {l : List (Nat × Worker)},
    lookupSlot slot l = none → (putSlot slot w l).length = l.length + 1
  | [], _ => rfl
  | (k, v) :: rest, h => by
    unfold lookupSlot at h
    split at h
    · cases h
    · next hne =>
      unfold putSlot
      rw [if_neg hne]
      split
      · rfl
      · rw [List.length_cons, List.length_cons, length_putSlot_of_none h]

/-! ### The roster -/

/-- Roster entry `k`. -/
def rosterEntry (m : Memory) (b : SetupBlock) (k : Nat) : EnrolParams := readEnrol m b.roster (16 * k)

/-- The worker that roster entry `k` spells. -/
def rosterWorker (m : Memory) (b : SetupBlock) (k : Nat) : Worker :=
  newWorker (rosterEntry m b k) ((assignmentOf (loadCalendar m b) (rosterEntry m b k).assignKind
    (rosterEntry m b k).assignNo).getD .none_)

/-- The table that the first `k` roster entries make. -/
def rosterTable (m : Memory) (b : SetupBlock) : Nat → WorkerTable
  | 0 => ⟨some b.capacity, [], []⟩
  | k + 1 => { rosterTable m b k with
      workers := putSlot (rosterEntry m b k).slot (rosterWorker m b k) (rosterTable m b k).workers
      index := insertBadge (rosterEntry m b k).badge (rosterEntry m b k).slot (rosterTable m b k).index }

theorem rosterTable_capacity (m : Memory) (b : SetupBlock) :
    ∀ k : Nat, (rosterTable m b k).capacity = some b.capacity
  | 0 => rfl
  | k + 1 => rosterTable_capacity m b k

/-- What the table of the first `k` entries holds, all of which fit. -/
structure RosterHeld (m : Memory) (b : SetupBlock) (k : Nat) (t : WorkerTable) : Prop where
  workers : t.workers.length = k
  index : t.index.length = k
  sorted : t.workers.Pairwise fun x y => x.1 < y.1
  off : ∀ e ∈ t.workers, e.2.interval = none
  slotFree : ∀ slot : Nat, lookupSlot slot t.workers = none ↔ ∀ j < k, (rosterEntry m b j).slot ≠ slot
  badgeFree : ∀ badge : Nat, lookupBadge badge t.index = none ↔ ∀ j < k, (rosterEntry m b j).badge ≠ badge
  slotHeld : ∀ j < k, lookupSlot (rosterEntry m b j).slot t.workers = some (rosterWorker m b j)
  badgeHeld : ∀ j < k, lookupBadge (rosterEntry m b j).badge t.index = some (rosterEntry m b j).slot

theorem forall_lt_succ_iff {P : Nat → Prop} {k : Nat} : (∀ j < k + 1, P j) ↔ (∀ j < k, P j) ∧ P k :=
  ⟨fun h => ⟨fun j hj => h j (Nat.lt_succ_of_lt hj), h k (Nat.lt_succ_self k)⟩,
    fun h j hj => (Nat.lt_succ_iff_lt_or_eq.1 hj).elim (h.1 j) fun he => he ▸ h.2⟩

theorem rosterTable_held {m : Memory} {b : SetupBlock} :
    ∀ {k : Nat}, (∀ j < k, RosterFits m b j) → RosterHeld m b k (rosterTable m b k)
  | 0, _ => ⟨rfl, rfl, .nil, fun _ h => absurd h List.not_mem_nil,
      fun _ => (iff_true_intro rfl).trans (by simp),
      fun _ => (iff_true_intro rfl).trans (by simp), fun _ h => absurd h (Nat.not_lt_zero _),
      fun _ h => absurd h (Nat.not_lt_zero _)⟩
  | k + 1, hfits => by
    obtain ⟨hbefore, hk⟩ := forall_lt_succ_iff.1 hfits
    obtain ⟨hworkers, hindex, hsorted, hoff, hslotFree, hbadgeFree, hslotHeld, hbadgeHeld⟩ :=
      rosterTable_held hbefore
    obtain ⟨-, -, -, -, -, -, -, -, -, hnew⟩ := hk
    have hslot : lookupSlot (rosterEntry m b k).slot (rosterTable m b k).workers = none :=
      (hslotFree _).2 fun j hj => (hnew j hj).1
    have hbadge : lookupBadge (rosterEntry m b k).badge (rosterTable m b k).index = none :=
      (hbadgeFree _).2 fun j hj => (hnew j hj).2
    refine ⟨(length_putSlot_of_none hslot).trans (congrArg (· + 1) hworkers),
      (length_insertBadge _ _ _).trans (congrArg (· + 1) hindex), putSlot_sorted _ _ hsorted,
      fun e he => ?_, fun slot => ?_, fun badge => ?_, forall_lt_succ_iff.2 ⟨fun j hj => ?_, ?_⟩,
      forall_lt_succ_iff.2 ⟨fun j hj => ?_, ?_⟩⟩
    · rcases mem_putSlot he with h | h
      · rw [congrArg Prod.snd h]
        rfl
      · exact hoff e h
    · rw [forall_lt_succ_iff, ← hslotFree]
      by_cases h : slot = (rosterEntry m b k).slot
      · subst h
        simp [rosterTable]
      · rw [rosterTable, lookupSlot_putSlot_other h]
        simp [Ne.symm h]
    · rw [forall_lt_succ_iff, ← hbadgeFree]
      by_cases h : badge = (rosterEntry m b k).badge
      · subst h
        simp [rosterTable, lookupBadge_insertBadge_same hbadge]
      · rw [rosterTable, lookupBadge_insertBadge_other h]
        simp [Ne.symm h]
    · exact (lookupSlot_putSlot_other (hnew j hj).1 _ _).trans (hslotHeld j hj)
    · exact lookupSlot_putSlot_same _ _ _
    · exact (lookupBadge_insertBadge_other (hnew j hj).2 _).trans (hbadgeHeld j hj)
    · exact lookupBadge_insertBadge_same hbadge

/-- In the table of the entries before it, an entry is enrolled exactly when it fits (R32, R41). -/
theorem enrolTest_roster {m : Memory} {b : SetupBlock} {s : State} {k : Nat}
    (ht : s.table = rosterTable m b k) (hcal : s.cal = loadCalendar m b)
    (hbefore : ∀ j < k, RosterFits m b j) :
    (RosterFits m b k → ∃ as, enrolTest s (rosterEntry m b k) = .ok as ∧
      newWorker (rosterEntry m b k) as = rosterWorker m b k) ∧
    (¬ RosterFits m b k → ∃ st, enrolTest s (rosterEntry m b k) = .error st) := by
  have hheld := rosterTable_held hbefore
  have hrange : slotInRange s (rosterEntry m b k).slot = decide ((rosterEntry m b k).slot < b.capacity) := by
    unfold slotInRange
    rw [ht, rosterTable_capacity]
  have hslot : workerAt s (rosterEntry m b k).slot = none ↔
      ∀ j < k, (rosterEntry m b j).slot ≠ (rosterEntry m b k).slot := by
    unfold workerAt
    rw [ht]
    exact hheld.slotFree _
  have hbadge := hheld.badgeFree (rosterEntry m b k).badge
  rw [← ht] at hbadge
  refine ⟨fun hk => ?_, fun hk => ?_⟩
  · obtain ⟨hassign, hlt, hone, hmost, hissue, hrule, hgrade, hprofile, hclear, hnew⟩ := hk
    obtain ⟨as, has⟩ := Option.isSome_iff_exists.1 hassign
    have hfits : EnrolFits s (rosterEntry m b k) :=
      ⟨hrange.trans (decide_eq_true hlt), hone, hmost, hissue, hrule, hgrade, hprofile, hclear⟩
    refine ⟨as, ?_, ?_⟩
    · rw [enrolTest_of_fits (by rw [hcal]; exact has) hfits, hslot.2 fun j hj => (hnew j hj).1,
        hbadge.2 fun j hj => (hnew j hj).2]
      rfl
    · unfold rosterWorker
      rw [show assignmentOf (loadCalendar m b) (rosterEntry m b k).assignKind
        (rosterEntry m b k).assignNo = some as from has]
      rfl
  · cases htest : enrolTest s (rosterEntry m b k) with
    | error st => exact ⟨st, rfl⟩
    | ok as =>
      refine absurd ?_ hk
      obtain ⟨hfree, hnone⟩ := enrolTest_ok htest
      have hunfit : ¬(assignmentOf s.cal (rosterEntry m b k).assignKind (rosterEntry m b k).assignNo = none
          ∨ ¬ EnrolFits s (rosterEntry m b k)) := fun h => by
        rw [enrolTest_of_unfit h] at htest
        cases htest
      obtain ⟨hassign, hfits⟩ := not_or.1 hunfit
      obtain ⟨hin, hone, hmost, hissue, hrule, hgrade, hprofile, hclear⟩ := not_not.1 hfits
      rw [hcal] at hassign
      exact ⟨Option.isSome_iff_ne_none.2 hassign, of_decide_eq_true (hrange.symm.trans hin), hone, hmost,
        hissue, hrule, hgrade, hprofile, hclear,
        fun j hj => ⟨hslot.1 hfree j hj, hbadge.1 hnone j hj⟩⟩

/-- The first `i` of the coming roster entries, which fit and are read well, are enrolled. -/
theorem enrolRoster_enrols {m : Memory} {b : SetupBlock} (n : Nat) :
    ∀ (i k : Nat) {s : State}, s.ram = m → s.table = rosterTable m b k → AnsweredWell i s →
      (∀ j < k + i, RosterFits m b j) →
      enrolRoster (loadCalendar m b) b.roster k (i + n) s = enrolRoster (loadCalendar m b) b.roster (k + i) n
        { ticked i s with table := rosterTable m b (k + i) }
  | 0, k, s, _, ht, _, _ => by
    rw [Nat.zero_add, Nat.add_zero, ← ht, ticked_zero]
  | i + 1, k, s, hm, ht, hwell, hfits => by
    subst hm
    obtain ⟨as, htest, hnew⟩ := (enrolTest_roster (m := s.ram) (b := b) (k := k)
      (s := { ticked 1 s with cal := loadCalendar s.ram b }) ht rfl
      fun j hj => hfits j (by omega)).1 (hfits k (by omega))
    have henrol : enrolWorker (rosterEntry s.ram b k) as (ticked 1 s)
        = { ticked 1 s with table := rosterTable s.ram b (k + 1) } := by
      unfold enrolWorker
      rw [hnew, show (ticked 1 s).table = rosterTable s.ram b k from ht]
      rfl
    have hrest := enrolRoster_enrols (m := s.ram) n i (k + 1) (s := { ticked 1 s with table := rosterTable s.ram b (k + 1) })
      rfl rfl (AnsweredWell.ticked (by rw [Nat.add_comm]; exact hwell)) fun j hj => hfits j (by omega)
    rw [Nat.add_right_comm, enrolRoster, linkAccess_well (hwell.mono (by omega))]
    dsimp only
    rw [show readEnrol (ticked 1 s).ram b.roster (16 * k) = rosterEntry s.ram b k from rfl, htest]
    dsimp only
    rw [henrol, hrest, show k + 1 + i = k + (i + 1) by omega]
    have htick : ticked i { ticked 1 s with table := rosterTable s.ram b (k + 1) }
        = { ticked (1 + i) s with table := rosterTable s.ram b (k + 1) } := by
      unfold ticked
      dsimp only
      rw [List.drop_drop]
    rw [htick, Nat.add_comm 1 i]

end Sys2Proof.Machine
end


section
/-! CERTIFICATE. The error response of the memory link, by run state (R175), and the roster step it can
meet. -/

namespace Sys2Proof.Machine

/-! ### The error itself -/

theorem linkFail_of_not_running {s : State} (hc : s.regs.run ≠ .clearing) (hr : s.regs.run ≠ .running) :
    linkFail s = { s with regs := { s.regs with events := s.regs.events ||| 0x040#12 } } := by
  unfold linkFail
  rw [raise_eq hc]
  exact if_neg hr

theorem linkFail_of_running {s : State} (hr : s.regs.run = .running) :
    linkFail s = { s with regs := { s.regs with
      run := .isolated, events := s.regs.events ||| 0x040#12 } } := by
  unfold linkFail
  rw [raise_eq (by rw [hr]; decide)]
  exact if_pos hr

/-! ### The roster step -/

/-- The zones with every occupancy 0. -/
def emptied (z : Vector Zone 15) : Vector Zone 15 := z.map fun e => { e with occupancy := 0 }

theorem emptied_emptied (z : Vector Zone 15) : emptied (emptied z) = emptied z := by
  unfold emptied
  rw [Vector.map_map]
  rfl

theorem openRoster_eq (b : SetupBlock) (s : State) :
    openRoster b s = { s with table := rosterTable s.ram b 0, zones := emptied s.zones } := rfl

theorem clearTable_roster (m : Memory) (b : SetupBlock) (k : Nat) (s : State) (z : Vector Zone 15) :
    clearTable { s with table := rosterTable m b k, zones := emptied z }
      = { s with table := ⟨some b.capacity, [], []⟩, zones := emptied z } := by
  have hzones := emptied_emptied z
  unfold clearTable
  dsimp only
  rw [rosterTable_capacity]
  unfold emptied at hzones ⊢
  rw [hzones]

/-- The entries before the one at `k` enrolled, and the rest of the roster. -/
theorem enrolRoster_at {b : SetupBlock} {s : State} {k : Nat} (hk : k < b.rosterCount)
    (hwell : AnsweredWell k s) (hfits : ∀ j < k, RosterFits s.ram b j) :
    enrolRoster (loadCalendar s.ram b) b.roster 0 b.rosterCount (openRoster b s)
      = enrolRoster (loadCalendar s.ram b) b.roster k (b.rosterCount - 1 - k + 1)
        { ticked k s with table := rosterTable s.ram b k, zones := emptied s.zones } := by
  have henrols := enrolRoster_enrols (m := s.ram) (b := b) (b.rosterCount - 1 - k + 1) k 0
    (s := openRoster b s) rfl rfl hwell (by simpa using hfits)
  rw [show k + (b.rosterCount - 1 - k + 1) = b.rosterCount by omega, Nat.zero_add] at henrols
  exact henrols

section Roster

variable {b : SetupBlock} {s : State} (hq : queueTooLong s b.capacity = false)
include hq

theorem rosterStep_of_fault {cal : Calendar} {f : LoadFault} {u : State}
    (h : enrolRoster cal b.roster 0 b.rosterCount (openRoster b s) = (some f, u)) :
    rosterStep cal b s = (some f, clearTable u) := by
  unfold rosterStep
  rw [hq, h]
  rfl

theorem rosterStep_of_done {cal : Calendar} {u : State}
    (h : enrolRoster cal b.roster 0 b.rosterCount (openRoster b s) = (none, u)) :
    rosterStep cal b s = (none, u) := by
  unfold rosterStep
  rw [hq, h]
  rfl

/-- A roster whose entries all fit is the table of its entries. -/
theorem rosterStep_pass (hwell : AnsweredWell b.rosterCount s)
    (hfits : ∀ j < b.rosterCount, RosterFits s.ram b j) :
    rosterStep (loadCalendar s.ram b) b s = (none, { ticked b.rosterCount s with
      table := rosterTable s.ram b b.rosterCount, zones := emptied s.zones }) := by
  have henrols := enrolRoster_enrols (m := s.ram) (b := b) 0 b.rosterCount 0 (s := openRoster b s) rfl rfl
    hwell (by simpa using hfits)
  rw [Nat.zero_add, Nat.add_zero] at henrols
  exact rosterStep_of_done hq henrols

/-- An entry that does not fit ends the load with the table cleared (R42). -/
theorem rosterStep_unfit (ha : s.linkAnswers = []) {k : Nat} (hk : k < b.rosterCount)
    (hfits : ∀ j < k, RosterFits s.ram b j) (hbad : ¬ RosterFits s.ram b k) :
    rosterStep (loadCalendar s.ram b) b s = (some ⟨.roster, .roster, k⟩, { s with
      table := ⟨some b.capacity, [], []⟩, zones := emptied s.zones }) := by
  obtain ⟨st, htest⟩ := (enrolTest_roster (m := s.ram) (b := b) (k := k)
    (s := { s with
      cal := loadCalendar s.ram b, table := rosterTable s.ram b k, zones := emptied s.zones })
    rfl rfl hfits).2 hbad
  have henrol := enrolRoster_at hk (answeredWell_nil ha k) hfits
  rw [enrolRoster, ticked_nil ha, linkAccess_nil (by exact ha)] at henrol
  dsimp only at henrol
  rw [show readEnrol s.ram b.roster (16 * k) = rosterEntry s.ram b k from rfl, htest] at henrol
  rw [rosterStep_of_fault hq henrol, clearTable_roster]

/-- An error at an entry ends the load with LINK and the table cleared (R42, R175). -/
theorem rosterStep_error {rest : List Bool} {k : Nat} (hk : k < b.rosterCount) (hwell : AnsweredWell k s)
    (hfits : ∀ j < k, RosterFits s.ram b j) (herr : (ticked k s).linkAnswers = true :: rest) :
    rosterStep (loadCalendar s.ram b) b s = (some ⟨.link, .roster, k⟩, clearTable (linkFail { s with
      table := rosterTable s.ram b k, zones := emptied s.zones, linkAnswers := rest })) := by
  have henrol := enrolRoster_at hk hwell hfits
  rw [enrolRoster, linkAccess_error (by exact herr)] at henrol
  exact rosterStep_of_fault hq henrol

end Roster

/-! ### The steps of a load -/

section Steps

variable {s s1 s2 s3 : State} {f : LoadFault}

theorem loadSteps_of_access (h : linkAccess s = (false, s1)) :
    loadSteps s = (some ⟨.link, .setup, 0⟩, s1) := by
  unfold loadSteps
  rw [h]

variable (hread : linkAccess s = (true, s1))
  (hnone : firstFault (setupTests s1 (readSetup s1.ram s1.regs.setupAddr)) = none)
include hread hnone

theorem loadSteps_of_entry
    (hentry : readEntries (allReads s1.ram (readSetup s1.ram s1.regs.setupAddr)) s1 = (some f, s2)) :
    loadSteps s = (some f, s2) := by
  unfold loadSteps
  rw [hread]
  dsimp only
  rw [hnone]
  dsimp only
  rw [hentry]

variable (hentries : readEntries (allReads s1.ram (readSetup s1.ram s1.regs.setupAddr)) s1 = (none, s2))
include hentries

theorem loadSteps_of_roster
    (hroster : rosterOrFix (loadCalendar s1.ram (readSetup s1.ram s1.regs.setupAddr))
      (readSetup s1.ram s1.regs.setupAddr) s2 = (some f, s3)) : loadSteps s = (some f, s3) := by
  unfold loadSteps
  rw [hread]
  dsimp only
  rw [hnone]
  dsimp only
  rw [hentries]
  dsimp only
  rw [hroster]

theorem loadSteps_of_success
    (hroster : rosterOrFix (loadCalendar s1.ram (readSetup s1.ram s1.regs.setupAddr))
      (readSetup s1.ram s1.regs.setupAddr) s2 = (none, s3)) :
    loadSteps s = succeedLoad s1.ram (readSetup s1.ram s1.regs.setupAddr) s3 := by
  unfold loadSteps
  rw [hread]
  dsimp only
  rw [hnone]
  dsimp only
  rw [hentries]
  dsimp only
  rw [hroster]

end Steps

theorem queueTooLong_of_firstFault {s : State} {b : SetupBlock}
    (h : firstFault (setupTests s b) = none) : queueTooLong s b.capacity = false :=
  firstFault_eq_none h (queueTooLong s b.capacity, ⟨.capacityChange, .setup, 0⟩) (by simp [setupTests])

theorem rosterOrFix_reload {b : SetupBlock} (h : b.reload = true) (cal : Calendar) (s : State) :
    rosterOrFix cal b s = rosterStep cal b s := if_pos h

theorem rosterOrFix_kept {b : SetupBlock} (h : b.reload = false) (cal : Calendar) {s : State}
    (hq : queueTooLong s b.capacity = false) : rosterOrFix cal b s = (none, s) := by
  unfold rosterOrFix
  rw [h, hq, Bool.and_false]
  rfl

/-! ### A load that meets an error -/

theorem linkAccess_failAfter_zero (s : State) : linkAccess (failAfter 0 s) = (false, linkFail s) := rfl

theorem linkAccess_failAfter (k : Nat) (s : State) :
    linkAccess (failAfter (k + 1) s) = (true, failAfter k s) := rfl

theorem ticked_failAfter_add (n k : Nat) (s : State) :
    ticked n (failAfter (n + k) s) = failAfter k s := by
  unfold ticked failAfter
  dsimp only
  rw [List.replicate_add, List.append_assoc, List.drop_append_of_le_length (by simp)]
  simp

/-- A load that ends with LINK is the one that has met the error. -/
theorem loadMeetsError_of_link {n : Nat} {s u : State} {t : TableId} {k : Nat}
    (h : loadSteps (failAfter n s) = (some ⟨.link, t, k⟩, u)) :
    loadMeetsError n s = failLoad ⟨.link, t, k⟩ u := by
  unfold loadMeetsError
  rw [completeLoad_of_fault h]

/-- The state after a load has failed with LINK. -/
def loadCut (t : TableId) (k : Nat) (s : State) : State :=
  { s with
    ram := writeBytes s.ram s.regs.setupAddr 0 ([14, byteOf t.code] ++ le16 k)
    regs := { s.regs with
      run := .halted
      configValid := false
      runMark := false
      events := s.regs.events ||| 0x042#12 } }

theorem failLoad_linkFail {s : State} (hr : s.regs.run = .loading) (ha : s.linkAnswers = []) (t : TableId)
    (k : Nat) : failLoad ⟨.link, t, k⟩ (linkFail s) = loadCut t k s := by
  rw [linkFail_of_not_running (by rw [hr]; decide) (by rw [hr]; decide), failLoad_nil (by exact ha)]
  unfold loadCut
  rw [show s.regs.events ||| 0x042#12 = s.regs.events ||| 0x040#12 ||| 0x002#12 by
    rw [BitVec.or_assoc]; rfl]
  rfl

theorem readEntries_failAfter {reads : List EntryRead} (hall : reads.all (·.fault.isNone) = true) (k : Nat)
    (s : State) : readEntries reads (failAfter (reads.length + k) s) = (none, failAfter k s) := by
  rw [← ticked_failAfter_add reads.length k s]
  exact readEntries_pass reads hall ((failAfter_answeredWell _ s).mono (Nat.le_add_right _ _))

section Load

variable {s : State} (hr : s.regs.run = .loading) (ha : s.linkAnswers = [])
include hr ha

theorem errorInFlight_setup : errorInFlight 0 s = loadCut .setup 0 s := by
  unfold errorInFlight
  rw [hr]
  exact (loadMeetsError_of_link (loadSteps_of_access (linkAccess_failAfter_zero s))).trans
    (failLoad_linkFail hr ha _ _)

variable (hnone : firstFault (setupTests s (readSetup s.ram s.regs.setupAddr)) = none)
include hnone

theorem errorInFlight_entry {k : Nat} {e : EntryRead}
    (he : (allReads s.ram (readSetup s.ram s.regs.setupAddr))[k]? = some e)
    (hall : ((allReads s.ram (readSetup s.ram s.regs.setupAddr)).take k).all (·.fault.isNone) = true) :
    errorInFlight (k + 1) s = loadCut e.table e.entry s := by
  have hsteps : loadSteps (failAfter (k + 1) s) = (some ⟨.link, e.table, e.entry⟩, linkFail s) :=
    loadSteps_of_entry (linkAccess_failAfter k s) hnone (readEntries_error (s := failAfter k s) _ he hall
      (failAfter_answeredWell k s) (congrArg State.linkAnswers (ticked_failAfter k s)))
  unfold errorInFlight
  rw [hr]
  exact (loadMeetsError_of_link hsteps).trans (failLoad_linkFail hr ha _ _)

variable (hall : (allReads s.ram (readSetup s.ram s.regs.setupAddr)).all (·.fault.isNone) = true)
include hall

theorem errorInFlight_roster {k : Nat} (hk : k < (readSetup s.ram s.regs.setupAddr).rosterCount)
    (hreload : (readSetup s.ram s.regs.setupAddr).reload = true)
    (hfits : ∀ j < k, RosterFits s.ram (readSetup s.ram s.regs.setupAddr) j) :
    errorInFlight ((allReads s.ram (readSetup s.ram s.regs.setupAddr)).length + 1 + k) s
      = { loadCut .roster k s with
        table := ⟨some (readSetup s.ram s.regs.setupAddr).capacity, [], []⟩
        zones := emptied s.zones } := by
  have hqueue : queueTooLong (failAfter k s) (readSetup s.ram s.regs.setupAddr).capacity = false :=
    queueTooLong_of_firstFault hnone
  have hroster := rosterStep_error (s := failAfter k s) hqueue hk (failAfter_answeredWell k s) hfits
    (congrArg State.linkAnswers (ticked_failAfter k s))
  have hsteps := loadSteps_of_roster (linkAccess_failAfter _ s) hnone (readEntries_failAfter hall k s)
    ((rosterOrFix_reload hreload _ _).trans hroster)
  rw [← Nat.add_right_comm] at hsteps
  unfold errorInFlight
  rw [hr]
  refine (loadMeetsError_of_link hsteps).trans ?_
  have hloading : (failAfter k s).regs.run = .loading := hr
  rw [linkFail_of_not_running (by rw [hloading]; decide) (by rw [hloading]; decide)]
  refine (congrArg (failLoad ⟨.link, .roster, k⟩) (clearTable_roster s.ram _ k
    { s with regs := { s.regs with events := s.regs.events ||| 0x040#12 } } s.zones)).trans ?_
  have hcut := failLoad_linkFail (s := { s with
    table := ⟨some (readSetup s.ram s.regs.setupAddr).capacity, [], []⟩, zones := emptied s.zones })
    hr ha .roster k
  rw [linkFail_of_not_running (by rw [hr]; decide) (by rw [hr]; decide)] at hcut
  exact hcut

theorem errorInFlight_result (hreload : (readSetup s.ram s.regs.setupAddr).reload = false) :
    errorInFlight ((allReads s.ram (readSetup s.ram s.regs.setupAddr)).length + 1) s
      = loadCut .setup 0 s := by
  have hqueue : queueTooLong (failAfter 0 s) (readSetup s.ram s.regs.setupAddr).capacity = false :=
    queueTooLong_of_firstFault hnone
  have hsteps := loadSteps_of_success (linkAccess_failAfter _ s) hnone (readEntries_failAfter hall 0 s)
    (rosterOrFix_kept hreload _ hqueue)
  unfold errorInFlight
  rw [hr]
  exact (loadMeetsError_of_link hsteps).trans (failLoad_linkFail hr ha _ _)

end Load

/-! ### A muster write that meets an error -/

theorem linkWrite_well {s : State} (h : AnsweredWell 1 s) (base : Word) (off : Nat) (b : List Byte) :
    linkWrite base off b s = (true, { ticked 1 s with ram := writeBytes s.ram base off b }) := by
  unfold linkWrite
  rw [linkAccess_well h]
  rfl

theorem linkWrite_error {s : State} {rest : List Bool} (h : s.linkAnswers = true :: rest) (base : Word)
    (off : Nat) (b : List Byte) :
    linkWrite base off b s = (false, linkFail { s with linkAnswers := rest }) := by
  unfold linkWrite
  rw [linkAccess_error h]

/-- The first `n` of the entries listed are written, and the rest are still to be written. -/
theorem writeMuster_well (area : Word) (rest : List MusterEntry) : ∀ (l : List MusterEntry) (i : Nat)
    {s : State}, AnsweredWell l.length s → writeMuster area i (l ++ rest) s = writeMuster area (i + l.length) rest
      { ticked l.length s with
        ram := writeBytes s.ram area (16 + 8 * i) (l.flatMap MusterEntry.bytes) }
  | [], _, _, _ => rfl
  | e :: l, i, s, h => by
    have hlen : (e :: l).length = 1 + l.length := by rw [List.length_cons, Nat.add_comm]
    rw [hlen] at h ⊢
    have ih := writeMuster_well area rest l (i + 1)
      (s := { ticked 1 s with ram := writeBytes s.ram area (16 + 8 * i) e.bytes }) h.ticked
    rw [List.cons_append, writeMuster, linkWrite_well (h.mono (by omega))]
    refine ih.trans ?_
    rw [List.flatMap_cons, writeBytes_append, musterEntry_bytes_length, ← ticked_ticked,
      show 16 + 8 * (i + 1) = 16 + 8 * i + 8 by omega, show i + 1 + l.length = i + (1 + l.length) by omega]
    rfl

/-- A muster write suspended at its next entry (R159, R175). -/
def musterSuspended (m : MusterWrite) (i : Nat) (ram : Memory) (s : State) : State :=
  { s with
    ram := ram
    regs := { s.regs with run := .isolated, events := s.regs.events ||| 0x040#12 }
    link := { s.link with muster := some { m with next := i } } }

theorem finishMuster_error {s : State} {m : MusterWrite} (hm : s.link.muster = some m)
    (hr : s.regs.run = .running) {l rest : List MusterEntry} {answers : List Bool}
    (hl : (m.entries.take m.count).drop m.next = l ++ rest) (hwell : AnsweredWell l.length s)
    (herr : (ticked l.length s).linkAnswers = true :: answers) :
    finishMuster s = musterSuspended m (m.next + l.length)
      (writeBytes s.ram m.area (16 + 8 * m.next) (l.flatMap MusterEntry.bytes))
      { s with linkAnswers := answers } := by
  unfold finishMuster
  rw [hm]
  dsimp only
  rw [if_pos hr, hl, writeMuster_well _ _ _ _ hwell]
  cases rest with
  | nil =>
    dsimp only [writeMuster]
    rw [linkWrite_error (by exact herr)]
    dsimp only
    rw [linkFail_of_running (by exact hr)]
    rfl
  | cons e rest =>
    rw [writeMuster, linkWrite_error (by exact herr)]
    dsimp only
    rw [linkFail_of_running (by exact hr)]
    rfl

theorem length_remaining (m : MusterWrite) :
    ((m.entries.take m.count).drop m.next).length = m.count - m.next := by
  have hcount : m.count ≤ m.entries.length := Nat.min_le_left _ _
  rw [List.length_drop, List.length_take, Nat.min_eq_left hcount]

theorem runningMeetsError_muster {s : State} {m : MusterWrite} (hm : s.link.muster = some m)
    (hr : s.regs.run = .running) (n : Nat) :
    runningMeetsError n s = musterSuspended m (m.next + min n (m.count - m.next))
      (writeBytes s.ram m.area (16 + 8 * m.next)
        ((((m.entries.take m.count).drop m.next).take n).flatMap MusterEntry.bytes)) s := by
  have hlen : (((m.entries.take m.count).drop m.next).take n).length = min n (m.count - m.next) := by
    rw [List.length_take, length_remaining]
  have hfinish := finishMuster_error (s := failAfter (min n (m.count - m.next)) s) hm hr
    (List.take_append_drop n _).symm (by rw [hlen]; exact failAfter_answeredWell _ s)
    (by rw [hlen, ticked_failAfter])
  rw [hlen] at hfinish
  unfold runningMeetsError
  rw [hm]
  exact hfinish

theorem exec_inFlight (n : Nat) (s : State) :
    exec (.linkError (.inFlight n)) s = .next (errorInFlight n s) := rfl

/-- Settles O23, by the run state and the access that meets the error. -/
theorem linkErrorIsolates : Obligations.LinkErrorIsolates := by
  unfold Obligations.LinkErrorIsolates
  intro n answers s
  refine ⟨rfl, fun hr hm => ?_, fun m hr hm => ?_, fun hr ha => ?_, ?_, fun hr => ?_, fun hr => ?_⟩
  · rw [exec_inFlight, errorInFlight, hr]
    dsimp only
    rw [runningMeetsError, hm]
    exact congrArg Host.Outcome.next (linkFail_of_running hr)
  · rw [exec_inFlight, errorInFlight, hr]
    dsimp only
    rw [runningMeetsError_muster hm hr n]
    refine ⟨_, rfl, rfl, ?_, rfl, rfl, rfl, rfl, rfl, rfl, rfl⟩
    simp [flagSet, Event.bit, musterSuspended]
  · rw [exec_inFlight, errorInFlight_setup hr ha]
    rfl
  · intro b reads failed hr ha hnone
    refine ⟨fun k e he hall => ?_, fun hall => ⟨fun k hk hreload hfits => ?_, fun hreload => ?_⟩⟩
    · rw [exec_inFlight, errorInFlight_entry hr ha hnone he hall]
      rfl
    · rw [exec_inFlight, errorInFlight_roster hr ha hnone hall hk hreload hfits]
      rfl
    · rw [exec_inFlight, errorInFlight_result hr ha hnone hall hreload]
      rfl
  · rw [exec_inFlight, errorInFlight, hr]
    dsimp only
    rw [linkFail_of_not_running (by rw [hr]; decide) (by rw [hr]; decide)]
  · rw [exec_inFlight, errorInFlight]
    obtain hr | hr := hr
    · rw [hr]
    · rw [hr]

end Sys2Proof.Machine
end


section
/-! SUPPORT. What the resumption of RUNNING leaves alone (R176, R182): the pending return, the held
output, the drain, and the start of a muster write. -/

namespace Sys2Proof.Machine

/-! ### The frame of the resumption -/

/-- What the acts of an entry to RUNNING leave alone. -/
structure RunFrame (s t : State) : Prop where
  clock : t.clock = s.clock
  mode : t.mode = s.mode
  cal : t.cal = s.cal
  lines : t.lines = s.lines
  doors : t.doors = s.doors
  pay : t.pay = s.pay
  bells : t.bells = s.bells
  fireState : t.fire.state = s.fire.state
  evacMask : t.fire.evacMask = s.fire.evacMask
  capacity : t.table.capacity = s.table.capacity
  setup : t.link.setup = s.link.setup
  configValid : t.regs.configValid = s.regs.configValid
  runMark : t.regs.runMark = s.regs.runMark
  flags : ∀ e : Event, flagSet e s = true → flagSet e t = true
  steady : s.linkAnswers = [] → t.linkAnswers = [] ∧ t.regs.run = s.regs.run

theorem RunFrame.refl (s : State) : RunFrame s s :=
  ⟨rfl, rfl, rfl, rfl, rfl, rfl, rfl, rfl, rfl, rfl, rfl, rfl, rfl, fun _ h => h, fun h => ⟨h, rfl⟩⟩

theorem RunFrame.trans {s t u : State} (h : RunFrame s t) (k : RunFrame t u) : RunFrame s u where
  clock := k.clock.trans h.clock
  mode := k.mode.trans h.mode
  cal := k.cal.trans h.cal
  lines := k.lines.trans h.lines
  doors := k.doors.trans h.doors
  pay := k.pay.trans h.pay
  bells := k.bells.trans h.bells
  fireState := k.fireState.trans h.fireState
  evacMask := k.evacMask.trans h.evacMask
  capacity := k.capacity.trans h.capacity
  setup := k.setup.trans h.setup
  configValid := k.configValid.trans h.configValid
  runMark := k.runMark.trans h.runMark
  flags := fun e he => k.flags e (h.flags e he)
  steady := fun ha =>
    have ht := h.steady ha
    ⟨(k.steady ht.1).1, (k.steady ht.1).2.trans ht.2⟩

theorem LinkOnly.runFrame {s t : State} (h : LinkOnly s t)
    (hflags : ∀ e : Event, flagSet e s = true → flagSet e t = true)
    (hsteady : s.linkAnswers = [] → t.linkAnswers = [] ∧ t.regs.run = s.regs.run) : RunFrame s t :=
  ⟨h.clock, h.mode, h.cal, h.lines, h.doors, h.pay, h.bells, congrArg FireUnit.state h.fire,
    congrArg FireUnit.evacMask h.fire, congrArg WorkerTable.capacity h.table, h.setup, h.configValid,
    h.runMark, hflags, hsteady⟩

theorem WriteStep.steady {s t : State} (h : WriteStep s t) (ha : s.linkAnswers = []) :
    t.linkAnswers = [] ∧ t.regs.run = s.regs.run := ⟨h.answers.trans ha, h.run⟩

/-! ### The journal -/

theorem raise_runFrame (e : Event) (s : State) : RunFrame s (raise e s) :=
  (raise_linkOnly e s).runFrame (raise_stepFrame e s).flags fun h => (raise_holdStep e s).writeStep.steady h

theorem handOver_runFrame (reserved : Bool) (t : Stamp) (b : RecordBody) (s : State) :
    RunFrame s (handOver reserved t b s) :=
  (handOver_linkOnly reserved t b s).runFrame (handOver_stepFrame reserved t b s).flags
    fun h => (handOver_writeStep h reserved t b).steady h

theorem tryWriteHead_runFrame (s : State) : RunFrame s (tryWriteHead s).2 :=
  have h := tryWriteHead_linkStep s
  h.toLinkOnly.runFrame h.flags fun ha => (tryWriteHead_writeStep ha).steady ha

/-! ### Closings -/

theorem setWorkers_runFrame (l : List (Nat × Worker)) (s : State) : RunFrame s (setWorkers s l) :=
  { RunFrame.refl s with }

theorem autoClose_runFrame (slot : Nat) (cause : CloseCause) (s : State) :
    RunFrame s (autoClose slot cause s) := by
  unfold autoClose
  split
  · exact .refl s
  · split
    · exact .refl s
    · exact (setWorkers_runFrame _ s).trans (handOver_runFrame _ _ _ _)

theorem modInterval_runFrame (slot : Nat) (f : OpenInterval → OpenInterval) (s : State) :
    RunFrame s (modInterval slot f s) := by
  unfold modInterval
  split
  · exact .refl s
  · split
    · exact .refl s
    · exact setWorkers_runFrame _ s

theorem actOnDeadline_runFrame (slot : Nat) (s : State) : RunFrame s (actOnDeadline slot s) := by
  have hdue := modInterval_runFrame slot (fun i => { i with due := false }) s
  unfold actOnDeadline
  dsimp only
  split
  · exact hdue
  · split
    · exact hdue.trans (autoClose_runFrame _ _ _)
    · exact hdue.trans (modInterval_runFrame _ _ _)

theorem actOnDeadlines_runFrame : ∀ (l : List Nat) (s : State), RunFrame s (actOnDeadlines l s)
  | [], s => .refl s
  | k :: rest, s => (actOnDeadline_runFrame k s).trans (actOnDeadlines_runFrame rest _)

/-! ### Requests that end -/

theorem pendReturn_runFrame (st : Status) (count resume : Option Nat) (s : State) :
    RunFrame s (pendReturn st count resume s) := by
  unfold pendReturn
  split
  · exact .refl s
  · exact { RunFrame.refl s with }

theorem settleReturn_steady {s : State} (h : s.linkAnswers = []) :
    (settleReturn s).linkAnswers = [] ∧ (settleReturn s).regs.run = s.regs.run := by
  unfold settleReturn
  split
  · dsimp only
    rw [linkWrite_nil h]
    dsimp only
    rw [linkWrite_nil (by exact h)]
    dsimp only
    split
    · exact (raise_runFrame _ _).steady h
    · exact ⟨h, rfl⟩
  · exact ⟨h, rfl⟩

theorem settleReturn_runFrame (s : State) : RunFrame s (settleReturn s) :=
  have h := settleReturn_linkStep s
  h.toLinkOnly.runFrame h.flags settleReturn_steady

theorem endRequest_runFrame (st : Status) (count resume : Option Nat) (s : State) :
    RunFrame s (endRequest st count resume s) := by
  have hpend := pendReturn_runFrame st count resume s
  unfold endRequest
  dsimp only
  split
  · exact hpend.trans (settleReturn_runFrame _)
  · exact hpend

/-! ### The held output -/

theorem holdOutput_runFrame (o : HeldOutput) (s : State) : RunFrame s (holdOutput o s) :=
  { RunFrame.refl s with }

theorem statementStep_runFrame (s : State) : RunFrame s (statementStep s) := by
  unfold statementStep
  split
  · split
    · exact endRequest_runFrame _ _ _ _
    · split
      · exact endRequest_runFrame _ _ _ _
      · exact .refl s
  · exact .refl s

theorem linkWrite_runFrame (base : Word) (off : Nat) (b : List Byte) (s : State) :
    RunFrame s (linkWrite base off b s).2 :=
  have h := linkWrite_linkStep base off b s
  h.toLinkOnly.runFrame h.flags fun ha => by
    rw [linkWrite_nil ha]
    exact ⟨ha, rfl⟩

theorem runFrame_of_linkWrite {base : Word} {off : Nat} {b : List Byte} {ok : Bool} {s t : State}
    (h : linkWrite base off b s = (ok, t)) : RunFrame s t := by
  have := linkWrite_runFrame base off b s
  rwa [h] at this

theorem writeHeld_runFrame (s : State) : RunFrame s (writeHeld s) := by
  unfold writeHeld
  split
  · next q o _ _ =>
    split
    · split
      · exact .refl s
      · split
        · next h => exact runFrame_of_linkWrite h
        · next s1 h =>
          have hdone : RunFrame s (setProgress q.cursor (q.written + 1) { s1 with
              link := { s1.link with output := none } }) :=
            (runFrame_of_linkWrite h).trans { RunFrame.refl s1 with }
          dsimp only
          split
          · exact hdone.trans (statementStep_runFrame _)
          · exact hdone.trans (endRequest_runFrame _ _ _ _)
    · exact .refl s
  · exact .refl s

/-! ### The drain -/

theorem freeWorker_runFrame (slot : Nat) (s : State) : RunFrame s (freeWorker slot s) := by
  unfold freeWorker
  split
  · exact .refl s
  · next w _ =>
    unfold dropOccupant modZone
    split <;> exact { RunFrame.refl s with }

theorem forcedWithdraw_runFrame (slot : Nat) (s : State) : RunFrame s (forcedWithdraw slot s) := by
  have hclose := autoClose_runFrame slot .withdraw s
  unfold forcedWithdraw
  dsimp only
  split
  · exact hclose
  · exact (hclose.trans (freeWorker_runFrame _ _)).trans (holdOutput_runFrame _ _)

theorem resumeWithdraw_runFrame (s : State) : RunFrame s (resumeWithdraw s) := by
  unfold resumeWithdraw
  split
  · split
    · exact endRequest_runFrame _ _ _ _
    · exact forcedWithdraw_runFrame _ s
  · exact .refl s

theorem serveOne_runFrame {s t : State} (h : serveOne s = some t) : RunFrame s t := by
  unfold serveOne at h
  split at h
  · split at h
    · cases h
      exact resumeWithdraw_runFrame s
    · split at h
      · cases h
        exact autoClose_runFrame _ _ s
      · cases h
  · cases h

theorem serveAll_runFrame : ∀ (n : Nat) (s : State), RunFrame s (serveAll n s)
  | 0, s => .refl s
  | n + 1, s => by
    unfold serveAll
    split
    · next s1 h => exact (serveOne_runFrame h).trans (serveAll_runFrame n s1)
    · exact .refl s

theorem runFrame_of_tryWriteHead {s t : State} {w : WriteEnd} (h : tryWriteHead s = (w, t)) :
    RunFrame s t := by
  have := tryWriteHead_runFrame s
  rwa [h] at this

theorem drainSteps_runFrame : ∀ (n : Nat) (s : State), RunFrame s (drainSteps n s)
  | 0, s => .refl s
  | n + 1, s => by
    have hserved := serveAll_runFrame (waiters s) s
    unfold drainSteps
    dsimp only
    split
    · split
      · next s2 h => exact (hserved.trans (runFrame_of_tryWriteHead h)).trans (drainSteps_runFrame n s2)
      · next h => exact hserved.trans (runFrame_of_tryWriteHead h)
    · exact hserved

theorem drain_runFrame (s : State) : RunFrame s (drain s) := by
  unfold drain
  split
  · exact drainSteps_runFrame _ s
  · exact .refl s

/-! ### The muster write, and the whole -/

theorem startMuster_runFrame (s : State) : RunFrame s (startMuster s) := by
  unfold startMuster
  split
  · split
    · have hset : RunFrame s { s with fire := { s.fire with musterPending := false } } :=
        { RunFrame.refl s with }
      dsimp only
      split
      · exact hset.trans (handOver_runFrame _ _ _ _)
      · exact { RunFrame.refl s with }
    · exact .refl s
  · exact .refl s

theorem restartPoll_runFrame (s : State) : RunFrame s (restartPoll s) := { RunFrame.refl s with }

theorem whileRunning_runFrame {f : State → State} (hf : ∀ s, RunFrame s (f s)) (s : State) :
    RunFrame s (whileRunning f s) := by
  unfold whileRunning
  split
  · exact hf s
  · exact .refl s

theorem resumeLink_runFrame (s : State) : RunFrame s (resumeLink s) := by
  unfold resumeLink
  refine RunFrame.trans ?_ (restartPoll_runFrame _)
  refine RunFrame.trans ?_ (whileRunning_runFrame startMuster_runFrame _)
  refine RunFrame.trans ?_ (whileRunning_runFrame drain_runFrame _)
  refine RunFrame.trans ?_ (whileRunning_runFrame writeHeld_runFrame _)
  exact whileRunning_runFrame settleReturn_runFrame s

end Sys2Proof.Machine
end


section
/-! CERTIFICATE. RUN (R182): the doors recomputed, the deadlines by their times, and the worker table
through the resumption while no request is in progress. -/

namespace Sys2Proof.Machine

/-! ### The table while no request is in progress -/

/-- A worker whose closing does not wait. -/
def Worker.resting (w : Worker) : Prop := ∀ i : OpenInterval, w.interval = some i → i.waiting = false

/-- The worker table in slot order. -/
def SlotOrdered (s : State) : Prop := s.table.workers.Pairwise fun a b => a.1 < b.1

/-- What an act of the resumption leaves of zones, index and table while no request is in progress. -/
structure FreeFrame (s t : State) : Prop where
  request : t.link.request = none
  zones : t.zones = s.zones
  index : t.table.index = s.table.index
  ordered : SlotOrdered s → SlotOrdered t
  kept : SlotOrdered s → ∀ slot w, workerAt s slot = some w → w.resting → workerAt t slot = some w
  off : (∀ e ∈ s.table.workers, e.2.interval = none) → t.table = s.table

theorem FreeFrame.trans {s t u : State} (h : FreeFrame s t) (k : FreeFrame t u) : FreeFrame s u where
  request := k.request
  zones := k.zones.trans h.zones
  index := k.index.trans h.index
  ordered := fun hs => k.ordered (h.ordered hs)
  kept := fun hs slot w hw hrest => k.kept (h.ordered hs) slot w (h.kept hs slot w hw hrest) hrest
  off := fun hoff => (k.off (by rw [h.off hoff]; exact hoff)).trans (h.off hoff)

theorem FreeFrame.of_same {s t : State} (hrequest : t.link.request = none) (hzones : t.zones = s.zones)
    (htable : t.table = s.table) : FreeFrame s t where
  request := hrequest
  zones := hzones
  index := congrArg WorkerTable.index htable
  ordered := fun hs => by unfold SlotOrdered; rwa [htable]
  kept := fun _ slot w hw _ => (workerAt_congr htable slot).trans hw
  off := fun _ => htable

theorem FreeFrame.refl {s : State} (h : s.link.request = none) : FreeFrame s s := .of_same h rfl rfl

theorem LinkOnly.freeFrame {s t : State} (h : LinkOnly s t) (hs : s.link.request = none) :
    FreeFrame s t :=
  .of_same (h.request.elim (fun e => e.trans hs) id) h.zones h.table

theorem writeHeld_of_none {s : State} (h : s.link.request = none) : writeHeld s = s := by
  unfold writeHeld
  rw [h]

/-! ### Waiting closings -/

theorem mem_waitingSlots {s : State} (hs : SlotOrdered s) {slot : Nat} :
    slot ∈ waitingSlots s ↔ ∃ w i, workerAt s slot = some w ∧ w.interval = some i ∧ i.waiting = true := by
  have h := (slotsByDeadline_ordered (·.waiting) hs).1 slot
  unfold waitingSlots
  rw [h, Option.any_eq_true]
  constructor
  · rintro ⟨i, hi, hwait⟩
    obtain ⟨w, hw, hwi⟩ := Option.bind_eq_some_iff.1 hi
    exact ⟨w, i, hw, hwi, hwait⟩
  · rintro ⟨w, i, hw, hwi, hwait⟩
    exact ⟨i, Option.bind_eq_some_iff.2 ⟨w, hw, hwi⟩, hwait⟩

/-- With every worker OFF no slot has a deadline. -/
theorem slotsByDeadline_of_off {s : State} (h : ∀ e ∈ s.table.workers, e.2.interval = none)
    (p : OpenInterval → Bool) : slotsByDeadline p s = [] := by
  have hnone : s.table.workers.filterMap (pickedDeadline p) = [] := by
    refine List.filterMap_eq_nil_iff.2 fun e he => ?_
    unfold pickedDeadline
    rw [h e he]
  rw [slotsByDeadline_eq, hnone]
  rfl

theorem autoClose_request (slot : Nat) (cause : CloseCause) (s : State) :
    (autoClose slot cause s).link.request = s.link.request := by
  unfold autoClose
  split
  · rfl
  · split
    · rfl
    · exact handOver_request _ _ _ _

theorem autoClose_zones (slot : Nat) (cause : CloseCause) (s : State) :
    (autoClose slot cause s).zones = s.zones := by
  unfold autoClose
  split
  · rfl
  · split
    · rfl
    · exact (handOver_linkOnly _ _ _ _).zones

/-- A closing writes the record of its own slot alone. -/
theorem autoClose_table (slot : Nat) (cause : CloseCause) (s : State) :
    (autoClose slot cause s).table = s.table ∨
      ∃ v, (autoClose slot cause s).table = (setWorker slot v s).table := by
  unfold autoClose
  split
  · exact .inl rfl
  · split
    · exact .inl rfl
    · exact .inr ⟨_, (handOver_linkOnly _ _ _ _).table⟩

theorem workerAt_autoClose_other {slot k : Nat} (h : k ≠ slot) (cause : CloseCause) (s : State) :
    workerAt (autoClose slot cause s) k = workerAt s k := by
  obtain ht | ⟨v, ht⟩ := autoClose_table slot cause s
  · exact workerAt_congr ht k
  · rw [workerAt_congr ht, workerAt_setWorker_other h]

theorem autoClose_ordered (slot : Nat) (cause : CloseCause) {s : State} (hs : SlotOrdered s) :
    SlotOrdered (autoClose slot cause s) := by
  unfold SlotOrdered
  obtain ht | ⟨v, ht⟩ := autoClose_table slot cause s
  · rwa [ht]
  · rw [ht]
    exact putSlot_sorted _ _ hs

theorem autoClose_index (slot : Nat) (cause : CloseCause) (s : State) :
    (autoClose slot cause s).table.index = s.table.index := by
  obtain ht | ⟨v, ht⟩ := autoClose_table slot cause s
  · rw [ht]
  · rw [ht]
    rfl

theorem serveOne_freeFrame {s t : State} (hq : s.link.request = none) (h : serveOne s = some t) :
    FreeFrame s t := by
  unfold serveOne at h
  rw [withdrawWaits_of_none hq] at h
  split at h
  · cases hwait : waitingSlots s with
    | nil =>
      rw [hwait] at h
      cases h
    | cons slot rest =>
      rw [hwait] at h
      cases h
      refine ⟨(autoClose_request _ _ _).trans hq, autoClose_zones _ _ _, autoClose_index _ _ _,
        autoClose_ordered _ _, fun hs k w hw hrest => ?_, fun hoff => ?_⟩
      · have hne : k ≠ slot := by
          rintro rfl
          have hmem : k ∈ waitingSlots s := by rw [hwait]; exact List.mem_cons_self
          obtain ⟨v, i, hv, hi, hwaiting⟩ := (mem_waitingSlots hs).1 hmem
          rw [hw] at hv
          cases hv
          rw [hrest i hi] at hwaiting
          cases hwaiting
        rw [workerAt_autoClose_other hne]
        exact hw
      · have hnil := slotsByDeadline_of_off hoff (·.waiting)
        unfold waitingSlots at hwait
        rw [hnil] at hwait
        cases hwait
  · cases h

theorem serveAll_freeFrame : ∀ (n : Nat) {s : State}, s.link.request = none → FreeFrame s (serveAll n s)
  | 0, _, hq => .refl hq
  | n + 1, s, hq => by
    unfold serveAll
    split
    · next s1 h =>
      have hone := serveOne_freeFrame hq h
      exact hone.trans (serveAll_freeFrame n hone.request)
    · exact .refl hq

theorem tryWriteHead_freeFrame {s t : State} {w : WriteEnd} (hq : s.link.request = none)
    (h : tryWriteHead s = (w, t)) : FreeFrame s t :=
  (linkStep_of_tryWriteHead h).toLinkOnly.freeFrame hq

theorem drainSteps_freeFrame : ∀ (n : Nat) {s : State}, s.link.request = none →
    FreeFrame s (drainSteps n s)
  | 0, _, hq => .refl hq
  | n + 1, s, hq => by
    have hserved := serveAll_freeFrame (waiters s) hq
    unfold drainSteps
    dsimp only
    split
    · split
      · next s2 h =>
        have hwrite := tryWriteHead_freeFrame hserved.request h
        exact (hserved.trans hwrite).trans (drainSteps_freeFrame n hwrite.request)
      · next h => exact hserved.trans (tryWriteHead_freeFrame hserved.request h)
    · exact hserved

theorem drain_freeFrame {s : State} (hq : s.link.request = none) : FreeFrame s (drain s) := by
  unfold drain
  split
  · exact drainSteps_freeFrame _ hq
  · exact .refl hq

theorem startMuster_freeFrame {s : State} (hq : s.link.request = none) : FreeFrame s (startMuster s) := by
  unfold startMuster
  split
  · split
    · have hset : FreeFrame s { s with fire := { s.fire with musterPending := false } } :=
        .of_same hq rfl rfl
      dsimp only
      split
      · exact hset.trans ((handOver_linkOnly _ _ _ _).freeFrame hq)
      · exact .of_same hq rfl rfl
    · exact .refl hq
  · exact .refl hq

theorem whileRunning_freeFrame {f : State → State}
    (hf : ∀ {s : State}, s.link.request = none → FreeFrame s (f s)) {s : State}
    (hq : s.link.request = none) : FreeFrame s (whileRunning f s) := by
  unfold whileRunning
  split
  · exact hf hq
  · exact .refl hq

theorem restartPoll_freeFrame {s : State} (hq : s.link.request = none) : FreeFrame s (restartPoll s) :=
  .of_same hq rfl rfl

theorem resumeLink_freeFrame {s : State} (hq : s.link.request = none) : FreeFrame s (resumeLink s) := by
  have hreturn := whileRunning_freeFrame (f := settleReturn)
    (fun {u} hu => (settleReturn_linkOnly u).freeFrame hu) hq
  have hheld := whileRunning_freeFrame (f := writeHeld)
    (fun {u} hu => by rw [writeHeld_of_none hu]; exact .refl hu) hreturn.request
  have hdrain := whileRunning_freeFrame (f := drain) drain_freeFrame hheld.request
  have hmuster := whileRunning_freeFrame (f := startMuster) startMuster_freeFrame hdrain.request
  unfold resumeLink
  exact (((hreturn.trans hheld).trans hdrain).trans hmuster).trans (restartPoll_freeFrame hmuster.request)

/-! ### The entry to RUNNING -/

theorem grantNames_mapDoors {f : Door → Door} (hf : ∀ e, (f e).grant = e.grant) (s : State) (slot : Nat) :
    grantNames (mapDoors f s) slot = grantNames s slot := by
  unfold grantNames mapDoors
  dsimp only
  rw [Vector.toList_map, List.any_map]
  refine congrArg (s.doors.toList.any ·) (funext fun e => ?_)
  simp only [Function.comp_apply, hf]

theorem lookupSlot_map (f : Worker → Worker) (slot : Nat) : ∀ l : List (Nat × Worker),
    lookupSlot slot (l.map fun e => (e.1, f e.2)) = (lookupSlot slot l).map f
  | [] => rfl
  | (k, v) :: rest => by
    rw [List.map_cons, lookupSlot, lookupSlot, lookupSlot_map f slot rest]
    split <;> rfl

/-- The marks that counting sets dropped from an interval. -/
def OpenInterval.undue (i : OpenInterval) : OpenInterval := { i with due := false }

theorem workerAt_dropDue (s : State) (slot : Nat) :
    workerAt (dropDue s) slot
      = (workerAt s slot).map fun w => { w with interval := w.interval.map OpenInterval.undue } :=
  lookupSlot_map (fun w => { w with interval := w.interval.map OpenInterval.undue }) slot s.table.workers

theorem dropDue_ordered {s : State} (hs : SlotOrdered s) : SlotOrdered (dropDue s) :=
  List.pairwise_map.2 hs

theorem dropDue_runFrame (s : State) : RunFrame s (dropDue s) := setWorkers_runFrame _ s

theorem modInterval_request (slot : Nat) (f : OpenInterval → OpenInterval) (s : State) :
    (modInterval slot f s).link = s.link := by
  unfold modInterval
  split
  · rfl
  · split <;> rfl

theorem actOnDeadline_request (slot : Nat) (s : State) :
    (actOnDeadline slot s).link.request = s.link.request := by
  have hdue := congrArg Link.request (modInterval_request slot (fun i => { i with due := false }) s)
  unfold actOnDeadline
  dsimp only
  split
  · exact hdue
  · split
    · exact (autoClose_request _ _ _).trans hdue
    · exact (congrArg Link.request (modInterval_request _ _ _)).trans hdue

theorem modInterval_table (slot : Nat) (f : OpenInterval → OpenInterval) (s : State) :
    (modInterval slot f s).table = s.table ∨
      ∃ v, (modInterval slot f s).table = (setWorker slot v s).table := by
  unfold modInterval
  split
  · exact .inl rfl
  · split
    · exact .inl rfl
    · exact .inr ⟨_, rfl⟩

/-- `t` has the worker table of `s` but for the record of one slot. -/
def WritesSlot (slot : Nat) (s t : State) : Prop :=
  t.table = s.table ∨ ∃ v, t.table = (setWorker slot v s).table

theorem WritesSlot.other {slot k : Nat} {s t : State} (h : WritesSlot slot s t) (hne : k ≠ slot) :
    workerAt t k = workerAt s k := by
  obtain ht | ⟨v, ht⟩ := h
  · exact workerAt_congr ht k
  · rw [workerAt_congr ht, workerAt_setWorker_other hne]

theorem WritesSlot.ordered {slot : Nat} {s t : State} (h : WritesSlot slot s t) (hs : SlotOrdered s) :
    SlotOrdered t := by
  unfold SlotOrdered
  obtain ht | ⟨v, ht⟩ := h
  · rwa [ht]
  · rw [ht]
    exact putSlot_sorted _ _ hs

theorem WritesSlot.trans {slot : Nat} {s t u : State} (h : WritesSlot slot s t) (k : WritesSlot slot t u) :
    WritesSlot slot s u := by
  unfold WritesSlot at h k ⊢
  obtain ht | ⟨v, ht⟩ := h
  · obtain hu | ⟨x, hu⟩ := k
    · exact .inl (hu.trans ht)
    · exact .inr ⟨x, by rw [hu, setWorker_table, setWorker_table, ht]⟩
  · obtain hu | ⟨x, hu⟩ := k
    · exact .inr ⟨v, hu.trans ht⟩
    · exact .inr ⟨x, by simp [hu, ht, putSlot_putSlot]⟩

theorem actOnDeadline_writesSlot (slot : Nat) (s : State) : WritesSlot slot s (actOnDeadline slot s) := by
  have hdue : WritesSlot slot s _ := modInterval_table slot (fun i => { i with due := false }) s
  unfold actOnDeadline
  dsimp only
  split
  · exact hdue
  · split
    · exact hdue.trans (autoClose_table _ _ _)
    · exact hdue.trans (modInterval_table _ _ _)

theorem actOnDeadlines_request : ∀ (l : List Nat) (s : State),
    (actOnDeadlines l s).link.request = s.link.request
  | [], _ => rfl
  | k :: rest, s => (actOnDeadlines_request rest _).trans (actOnDeadline_request k s)

theorem actOnDeadlines_ordered : ∀ (l : List Nat) {s : State}, SlotOrdered s →
    SlotOrdered (actOnDeadlines l s)
  | [], _, hs => hs
  | k :: rest, s, hs => actOnDeadlines_ordered rest ((actOnDeadline_writesSlot k s).ordered hs)

theorem workerAt_actOnDeadlines {slot : Nat} : ∀ (l : List Nat) (s : State), slot ∉ l →
    workerAt (actOnDeadlines l s) slot = workerAt s slot
  | [], _, _ => rfl
  | k :: rest, s, hnot =>
    (workerAt_actOnDeadlines rest _ fun h => hnot (List.mem_cons_of_mem k h)).trans
      ((actOnDeadline_writesSlot k s).other fun h => hnot (h ▸ List.mem_cons_self))

/-- The state with the doors as an entry to RUNNING recomputes them. -/
def doorsRunning (s : State) : State := mapDoors (recomputedDoor (setRun .running s)) (setRun .running s)

theorem enterRunning_eq (s : State) : enterRunning s = resumeLink (entryDeadlines (doorsRunning s)) := by
  rw [enterRunning, recomputeDoors_eq]
  rfl

theorem entryDeadlines_runFrame (s : State) : RunFrame s (entryDeadlines s) :=
  (dropDue_runFrame s).trans (actOnDeadlines_runFrame _ _)

theorem enterRunning_runFrame (s : State) : RunFrame (doorsRunning s) (enterRunning s) := by
  rw [enterRunning_eq]
  exact (entryDeadlines_runFrame _).trans (resumeLink_runFrame _)

theorem resumeLink_pollTimer (s : State) : (resumeLink s).link.pollTimer = s.link.setup.map (·.poll) := by
  have hframe := resumeLink_runFrame s
  have hpoll : (resumeLink s).link.pollTimer = (resumeLink s).link.setup.map (·.poll) := rfl
  rw [hpoll, hframe.setup]

theorem recomputedDoor_open {s : State} {e : Door} (h : recomputedState s e = .open_) :
    (recomputedDoor s e).held = some (e.entry.heldLimit * 16) ∧
      (recomputedDoor s e).openStart = some s.clock.now := by
  unfold recomputedDoor
  rw [h, if_neg (by simp), if_pos rfl]
  exact ⟨by simp [enterOpen], rfl⟩

theorem recomputedState_running (s : State) (e : Door) :
    recomputedState (setRun .running s) e
      = if fireActive s = true then .egress else restingState e := by
  by_cases hf : fireActive s = true
  · rw [if_pos hf]
    exact recomputedState_egress.2 hf
  · rw [if_neg hf, recomputedState_of_no_fire (by exact Bool.eq_false_of_not_eq_true hf)]
    rfl

/-! ### Deadlines at the entry -/

theorem workerAt_entered_undue {s : State} {slot : Nat} {w : Worker} {i : OpenInterval}
    (hw : workerAt s slot = some w) (hi : w.interval = some i) :
    workerAt (dropDue (doorsRunning s)) slot = some { w with interval := some i.undue } := by
  have hat : workerAt (doorsRunning s) slot = some w := hw
  rw [workerAt_dropDue, hat, Option.map_some, hi]
  rfl

/-- A worker that rests after the deadlines of an entry stands as it is after the entry. -/
theorem workerAt_enterRunning {s : State} {slot : Nat} (hq : s.link.request = none) (hs : SlotOrdered s)
    {v : Worker} (hv : workerAt (entryDeadlines (doorsRunning s)) slot = some v)
    (hrest : v.resting) : workerAt (enterRunning s) slot = some v := by
  have hordered : SlotOrdered (entryDeadlines (doorsRunning s)) :=
    actOnDeadlines_ordered _ (dropDue_ordered (s := doorsRunning s) hs)
  have hrequest : (entryDeadlines (doorsRunning s)).link.request = none :=
    (actOnDeadlines_request _ _).trans hq
  rw [enterRunning_eq]
  exact (resumeLink_freeFrame hrequest).kept hordered slot v hv hrest

/-- The mark that counting sets has no part in a closing. -/
theorem closing_undue (cal : Calendar) (p : PayTables) (w : Worker) (i : OpenInterval) (t : Option Nat) :
    (closing cal p { w with interval := some i.undue } { i.undue with due := false } t).1
      = (closing cal p w i t).1 := rfl

section Entry

variable {s : State} {slot : Nat} {w : Worker} {i : OpenInterval} (hw : workerAt s slot = some w)
  (hi : w.interval = some i) (hq : s.link.request = none)
  (hs : SlotOrdered s)
include hw hi hq hs

/-- The one deadline that an entry finds closes its interval, where there is room (R114). -/
theorem workerAt_enterRunning_closed
    (hreached : slotsByDeadline (fun j => j.deadline ≤ s.clock.now.sec) s = [slot])
    (hgrant : grantNames s slot = false) (hroom : hasRoom s = true) :
    workerAt (enterRunning s) slot = some (closing s.cal s.pay w i none).1 := by
  have hlist : slotsByDeadline (fun j => j.deadline ≤ (doorsRunning s).clock.now.sec) (doorsRunning s)
      = [slot] := hreached
  have hundue := workerAt_entered_undue hw hi
  have hnames : grantNames (dropDue (doorsRunning s)) slot = false :=
    (grantNames_mapDoors (recomputedDoor_grant _) (setRun .running s) slot).trans hgrant
  have hact : entryDeadlines (doorsRunning s) = autoClosed slot .deadline { w with interval := some i.undue }
      { i.undue with due := false } (dropDue (doorsRunning s)) := by
    unfold entryDeadlines
    rw [hlist]
    exact (actOnDeadline_eq rfl hundue rfl).trans (deadlineActed_of_room _ _ hnames hroom)
  refine workerAt_enterRunning hq hs (v := (closing s.cal s.pay w i none).1) ?_ fun j hj => by
    cases hj
  have hcal : (dropDue (doorsRunning s)).cal = s.cal := rfl
  have hpay : (dropDue (doorsRunning s)).pay = s.pay := rfl
  rw [hact]
  unfold workerAt
  rw [autoClosed_table, hcal, hpay, closing_undue]
  exact lookupSlot_putSlot_same slot _ _

/-- A deadline ahead leaves its worker ON (R114). -/
theorem workerAt_enterRunning_kept (hahead : s.clock.now.sec < i.deadline) (hwait : i.waiting = false) :
    workerAt (enterRunning s) slot = some { w with interval := some i.undue } := by
  have hnot : slot ∉ slotsByDeadline (fun j => j.deadline ≤ (doorsRunning s).clock.now.sec)
      (doorsRunning s) := fun hmem => by
    obtain ⟨j, hj, hle⟩ := Option.any_eq_true _ _ |>.1
      (((slotsByDeadline_ordered (fun j => j.deadline ≤ s.clock.now.sec) hs).1 slot).1 hmem)
    have hbind : (workerAt s slot).bind (·.interval) = some i := by rw [hw, Option.bind_some, hi]
    cases hbind.symm.trans hj
    exact absurd hahead (Nat.not_lt.2 (of_decide_eq_true hle))
  refine workerAt_enterRunning hq hs ?_ fun j hj => by cases hj; exact hwait
  unfold entryDeadlines
  rw [workerAt_actOnDeadlines _ _ hnot]
  exact workerAt_entered_undue hw hi

end Entry

theorem exec_run (host : HostWrites) (s : State) :
    exec (.run host) s = .next (runOp (s.hostWrites host)) := rfl

theorem runOp_of_halted {s : State} (h : s.regs.run = .halted) :
    runOp s = if s.regs.configValid = true then enterRunning s else s := by
  unfold runOp
  rw [h]

theorem runOp_of_isolated {s : State} (h : s.regs.run = .isolated) :
    runOp s = resumeLink (setRun .running s) := by
  unfold runOp
  rw [h]

theorem runOp_of_other {s : State} (h : s.regs.run = .clearing ∨ s.regs.run = .loading ∨
    s.regs.run = .running) : runOp s = s := by
  unfold runOp
  obtain h | h | h := h <;> rw [h]

/-- Settles O19, by the frame of the resumption and the deadlines of the entry. -/
theorem runRecomputesTheDoors : Obligations.RunRecomputesTheDoors := by
  unfold Obligations.RunRecomputesTheDoors
  intro host s
  simp only [exec_run]
  refine ⟨fun h => congrArg Host.Outcome.next ?_, fun hr hvalid ha => ?_, fun hr ha => ?_⟩
  · have hcases : (s.regs.run = .clearing ∨ s.regs.run = .loading ∨ s.regs.run = .running) ∨
        (s.regs.run = .halted ∧ s.regs.configValid = false) := by tauto
    obtain h | ⟨hr, hinvalid⟩ := hcases
    · exact runOp_of_other (s := s.hostWrites host) h
    · exact (runOp_of_halted (s := s.hostWrites host) hr).trans (if_neg (by
        rw [show (s.hostWrites host).regs.configValid = false from hinvalid]
        decide))
  · have hrun : runOp (s.hostWrites host) = enterRunning (s.hostWrites host) :=
      (runOp_of_halted (s := s.hostWrites host) hr).trans (if_pos hvalid)
    have hframe := enterRunning_runFrame (s.hostWrites host)
    have hpoll : (enterRunning (s.hostWrites host)).link.pollTimer = s.link.setup.map (·.poll) := by
      rw [enterRunning_eq, resumeLink_pollTimer, (entryDeadlines_runFrame _).setup]
      rfl
    rw [hrun]
    refine ⟨_, rfl, (hframe.steady ha).2, hpoll, fun d => ?_,
      fun slot w i hw hi hgrant hq hs => ⟨fun hreached hroom => ?_, fun hahead hwait => ?_⟩,
      hframe.clock, hframe.mode, hframe.cal, hframe.lines, hframe.bells⟩
    · have hdoor : (enterRunning (s.hostWrites host)).doors[d]
          = recomputedDoor (setRun .running (s.hostWrites host)) s.doors[d] := by
        rw [hframe.doors]
        exact mapDoors_door _ _ d
      have hstate : recomputedState (setRun .running (s.hostWrites host)) s.doors[d]
          = if fireActive s = true then DoorState.egress else restingState s.doors[d] :=
        recomputedState_running (s.hostWrites host) s.doors[d]
      rw [hdoor, recomputedDoor_state, recomputedDoor_entry, recomputedDoor_contact]
      exact ⟨hstate, fun hopen => recomputedDoor_open hopen, rfl, rfl⟩
    · exact workerAt_enterRunning_closed (s := s.hostWrites host) hw hi hq hs hreached hgrant hroom
    · exact workerAt_enterRunning_kept (s := s.hostWrites host) hw hi hq hs hahead hwait
  · have hframe := resumeLink_runFrame (setRun .running (s.hostWrites host))
    rw [runOp_of_isolated (s := s.hostWrites host) hr]
    exact ⟨_, rfl, (hframe.steady ha).2, resumeLink_pollTimer _, hframe.doors, hframe.clock,
      hframe.mode, hframe.cal, hframe.lines, hframe.bells⟩

end Sys2Proof.Machine
end


section
/-! CERTIFICATE. LOAD_COMPLETE (R162): the tests of the setup block, the first failing entry, the roster,
and the tables in force. -/

namespace Sys2Proof.Machine

/-! ### The tests of the setup block -/

theorem firstFault_cons (c : Bool) (f : LoadFault) (rest : List (Bool × LoadFault)) :
    firstFault ((c, f) :: rest) = if c = true then some f else firstFault rest := by
  cases c <;> rfl

theorem misaligned_iff (n : Nat) (a : Word) : misaligned n a = true ↔ a.toNat % n ≠ 0 := decide_eq_true_iff

theorem capacityOk_iff (w : Nat) : (!capacityOk w) = true ↔ w < 256 ∨ 3840 < w ∨ w % 256 ≠ 0 := by
  simp [capacityOk]
  omega

theorem capacityChanged_iff (s : State) (b : SetupBlock) : capacityChanged s b = true ↔
    b.reload = false ∧ s.table.capacity ≠ none ∧ s.table.capacity ≠ some b.capacity := by
  unfold capacityChanged
  cases s.table.capacity <;> simp

theorem noTime_iff (s : State) (b : SetupBlock) : noTime s b = true ↔
    (b.time = 4294967295 ∧ s.clock.valid = false) ∨ (b.time ≠ 4294967295 ∧ 2831155199 < b.time) := by
  have hones : Config.allOnes = 4294967295 := rfl
  have hlast : Config.lastSecond = 2831155199 := rfl
  unfold noTime
  rw [hones, hlast]
  by_cases ht : b.time = 4294967295 <;> simp [ht]

/-- The first test that fails, test by test (R163). -/
theorem setupTests_in_order (s : State) (b : SetupBlock) :
    let here : LoadCode → Option LoadFault := fun code => some ⟨code, .setup, 0⟩
    firstFault (setupTests s b) =
      (if b.capacity < 256 ∨ 3840 < b.capacity ∨ b.capacity % 256 ≠ 0 then here .length
      else if b.reload = false ∧ s.table.capacity ≠ none ∧ s.table.capacity ≠ some b.capacity then
        here .capacityChange
      else if 4096 - b.capacity < s.link.queue.length then here .capacityChange
      else if (b.time = 4294967295 ∧ s.clock.valid = false) ∨
          (b.time ≠ 4294967295 ∧ 2831155199 < b.time) then here .noTime
      else if b.workList.toNat % 64 ≠ 0 then here .align
      else if b.workLog < 2 ∨ 8 < b.workLog then here .length
      else if b.journal.toNat % 32 ≠ 0 then here .align
      else if b.journalLog < 4 ∨ 12 < b.journalLog then here .length
      else if b.musterArea.toNat % 4 ≠ 0 then here .align
      else if b.roster.toNat % 4 ≠ 0 ∨ b.zone.toNat % 4 ≠ 0 ∨ b.door.toNat % 4 ≠ 0 ∨
          b.reader.toNat % 4 ≠ 0 ∨ b.shift.toNat % 4 ≠ 0 ∨ b.rota.toNat % 4 ≠ 0 ∨
          b.payRule.toNat % 4 ≠ 0 ∨ b.grade.toNat % 4 ≠ 0 ∨ b.dayType.toNat % 4 ≠ 0 ∨
          b.week.toNat % 4 ≠ 0 ∨ b.exceptions.toNat % 4 ≠ 0 ∨ b.bellPlan.toNat % 4 ≠ 0 then
        here .align
      else if b.reload = true ∧ b.capacity < b.rosterCount then some ⟨.length, .roster, b.capacity⟩
      else if 64 < b.exceptionCount then some ⟨.length, .exceptions, 64⟩
      else if 128 < b.bellCount then some ⟨.length, .bellPlan, 128⟩
      else none) := by
  intro here
  simp only [setupTests, firstFault_cons, capacityOk_iff, capacityChanged_iff, noTime_iff, misaligned_iff,
    queueTooLong, decide_eq_true_iff, Bool.and_eq_true, List.any_cons, List.any_nil, Bool.or_eq_true,
    Bool.or_false]
  rfl

/-! ### A load that fails -/

theorem readEntries_done {s : State} {l : List EntryRead} (ha : s.linkAnswers = [])
    (hall : l.all (·.fault.isNone) = true) : readEntries l s = (none, s) := by
  rw [readEntries_pass _ hall (answeredWell_nil ha _), ticked_nil ha]

section Fail

variable {s : State} (ha : s.linkAnswers = [])
  (hnone : firstFault (setupTests s (readSetup s.ram s.regs.setupAddr)) = none)
include ha hnone

theorem completeLoad_of_entry {e : EntryRead} {code : LoadCode}
    (hfind : (allReads s.ram (readSetup s.ram s.regs.setupAddr)).find? (·.fault.isSome) = some e)
    (hcode : e.fault = some code) :
    (completeLoad s).2 = failLoad ⟨code, e.table, e.entry⟩ s := by
  rw [completeLoad_of_fault (loadSteps_of_entry (linkAccess_nil ha) hnone
    (readEntries_fault ha hcode _ hfind))]

variable (hall : (allReads s.ram (readSetup s.ram s.regs.setupAddr)).all (·.fault.isNone) = true)
include hall

theorem completeLoad_of_unfit {k : Nat} (hk : k < (readSetup s.ram s.regs.setupAddr).rosterCount)
    (hreload : (readSetup s.ram s.regs.setupAddr).reload = true)
    (hfits : ∀ j < k, RosterFits s.ram (readSetup s.ram s.regs.setupAddr) j)
    (hbad : ¬ RosterFits s.ram (readSetup s.ram s.regs.setupAddr) k) :
    (completeLoad s).2 = failLoad ⟨.roster, .roster, k⟩ { s with
      table := ⟨some (readSetup s.ram s.regs.setupAddr).capacity, [], []⟩, zones := emptied s.zones } := by
  have hroster := rosterStep_unfit (queueTooLong_of_firstFault hnone) ha hk hfits hbad
  rw [completeLoad_of_fault (loadSteps_of_roster (linkAccess_nil ha) hnone (readEntries_done ha hall)
    ((rosterOrFix_reload hreload _ _).trans hroster))]

end Fail

/-! ### The initial time -/

/-- A step of plant time outside RUNNING and ISOLATED: the clock, the exception list, the bells, and the
records of the step. -/
theorem stepTo_holdStep {s : State} (hg : gatesRun s = false) {target : Stamp}
    (hclamp : clampTime target = target) (cause : StepCause) :
    ∃ circuits : Vector Circuit 8, HoldStep { timeSet target s with bells := { s.bells with
      passed := max s.bells.passed target.sec, circuits := circuits } } (stepTo target cause s) := by
  have hr : s.regs.run ≠ .running := fun h => by
    rw [gatesRun, h] at hg
    cases hg
  have hraise := raise_holdStep .clockStep (report (.clockStep (some s.clock.now) cause) (timeSet target s))
  have htold : HoldStep (timeSet target s) (stepTold target cause s) :=
    (report_holdStep (s := timeSet target s) hr _).trans hraise
  have hrun : (stepTold target cause s).regs.run = s.regs.run := htold.run
  have hnotice : HoldStep (rung target (stepTold target cause s))
      (bellNotice s.clock.now target (stepTold target cause s)) := by
    unfold bellNotice
    dsimp only
    have hrung : (rung target (stepTold target cause s)).regs.run ≠ .running := by
      rw [show (rung target (stepTold target cause s)).regs.run = s.regs.run from hrun]
      exact hr
    cases (List.filter (isLate target) (namedEntries (stepTold target cause s).bells.passed target.sec
      (stepTold target cause s))).head? with
    | none => exact .refl _
    | some x =>
      cases (List.filter (isLate target) (namedEntries (stepTold target cause s).bells.passed target.sec
        (stepTold target cause s))).getLast? with
      | none => exact .refl _
      | some y => exact report_holdStep hrung _
  have hstep := stepTo_eq target cause s
  rw [hclamp] at hstep
  dsimp only at hstep
  rw [hg, if_neg (by decide)] at hstep
  have hbells : (stepTold target cause s).bells = s.bells := (stepTold_linkOnly target cause s).bells
  rw [hstep]
  refine ⟨rungCircuits ((namedEntries (stepTold target cause s).bells.passed target.sec
    (stepTold target cause s)).filter fun x => !isLate target x) (stepTold target cause s),
    HoldStep.trans ?_ hnotice⟩
  unfold rung
  rw [hbells]
  obtain ⟨queue, reserved, holdGap, lost, seq, draws, events, htold⟩ := htold
  rw [htold]
  exact ⟨_, _, _, _, _, _, _, rfl⟩

/-- The clock after the initial time of a load. -/
def timedClock (b : SetupBlock) (c : Clock) : Clock :=
  if b.time = 4294967295 then c else { c with now := ⟨b.time, 0⟩, valid := true, slew := none }

/-- The calendar after the initial time of a load. -/
def timedCal (b : SetupBlock) (c : Clock) (cal : Calendar) : Calendar :=
  { cal with exceptions :=
      if c.valid = true ∧ b.time ≠ 4294967295 ∧ c.now.sec / 86400 < b.time / 86400 then
        cal.exceptions.filter fun e => b.time / 86400 ≤ e.1 + 7
      else cal.exceptions }

/-- H after the initial time of a load (R141). -/
def timedPassed (b : SetupBlock) (c : Clock) (passed : Nat) : Nat :=
  if b.time = 4294967295 then passed
  else if c.valid = true then max passed b.time else b.time

/-- The initial time of a load: the clock, the exception list, H, the circuits, and its records. -/
theorem loadTime_holdStep {b : SetupBlock} {s : State} (hg : gatesRun s = false)
    (htime : noTime s b = false) :
    ∃ circuits : Vector Circuit 8, HoldStep { s with
      clock := timedClock b s.clock
      cal := timedCal b s.clock s.cal
      bells := { s.bells with passed := timedPassed b s.clock s.bells.passed, circuits := circuits } }
      (loadTime b s) := by
  obtain ⟨-, hlast⟩ := noTime_eq_false htime
  have hr : s.regs.run ≠ .running := fun h => by
    rw [gatesRun, h] at hg
    cases hg
  by_cases hall : b.time = 4294967295
  · refine ⟨s.bells.circuits, ?_⟩
    have hkept : loadTime b s = s := if_pos hall
    rw [hkept, timedClock, if_pos hall, timedPassed, if_pos hall, timedCal, if_neg fun h => h.2.1 hall]
    exact .refl s
  · rw [timedClock, if_neg hall, timedPassed, if_neg hall, timedCal]
    by_cases hv : s.clock.valid = true
    · have hstepped : loadTime b s = stepTo ⟨b.time, 0⟩ .load s := (if_neg hall).trans (if_pos hv)
      have hclamp : clampTime ⟨b.time, 0⟩ = ⟨b.time, 0⟩ := if_neg (Nat.not_lt.2 (hlast hall))
      obtain ⟨circuits, hstep⟩ := stepTo_holdStep hg hclamp .load
      refine ⟨circuits, ?_⟩
      unfold timeSet at hstep
      rw [hstepped, if_pos hv]
      simp only [hv, hall, ne_eq, not_false_eq_true, true_and]
      rw [← hv]
      exact hstep
    · have hset : loadTime b s = report (.clockStep none .load) { s with
          clock := { s.clock with now := ⟨b.time, 0⟩, valid := true, slew := none }
          bells := { s.bells with passed := b.time } } := (if_neg hall).trans (if_neg hv)
      refine ⟨s.bells.circuits, ?_⟩
      rw [hset, if_neg hv, if_neg fun h => hv h.1]
      exact report_holdStep (by exact hr) _

end Sys2Proof.Machine
end


section
/-! CERTIFICATE. The success of a load: the configuration in force, the initial time, and the entry to
RUNNING that is ordered with it (R162, R182). -/

namespace Sys2Proof.Machine

/-! ### The entry to RUNNING, from the state before it -/

/-- What an entry to RUNNING leaves of the state before it while no request is in progress. -/
structure EnteredFrame (s t : State) : Prop where
  clock : t.clock = s.clock
  mode : t.mode = s.mode
  cal : t.cal = s.cal
  lines : t.lines = s.lines
  zones : t.zones = s.zones
  doors : ∀ d : DoorNo, t.doors[d].entry = s.doors[d].entry ∧ t.doors[d].mark = s.doors[d].mark
  pay : t.pay = s.pay
  bells : t.bells = s.bells
  fireState : t.fire.state = s.fire.state
  evacMask : t.fire.evacMask = s.fire.evacMask
  capacity : t.table.capacity = s.table.capacity
  index : t.table.index = s.table.index
  off : (∀ e ∈ s.table.workers, e.2.interval = none) → t.table = s.table
  setup : t.link.setup = s.link.setup
  configValid : t.regs.configValid = s.regs.configValid
  runMark : t.regs.runMark = s.regs.runMark
  flags : ∀ e : Event, flagSet e s = true → flagSet e t = true

theorem EnteredFrame.refl (s : State) : EnteredFrame s s :=
  ⟨rfl, rfl, rfl, rfl, rfl, fun _ => ⟨rfl, rfl⟩, rfl, rfl, rfl, rfl, rfl, rfl, fun _ => rfl, rfl, rfl, rfl,
    fun _ h => h⟩

/-- An interval map leaves a table with every worker OFF. -/
theorem mapIntervals_off {s : State} (h : ∀ e ∈ s.table.workers, e.2.interval = none)
    (f : OpenInterval → OpenInterval) : (mapIntervals f s).table = s.table := by
  have hmap : (s.table.workers.map fun e => (e.1, { e.2 with interval := e.2.interval.map f }))
      = s.table.workers := by
    refine (List.map_congr_left fun e he => ?_).trans (List.map_id _)
    rw [h e he]
    refine Prod.ext rfl ?_
    show { e.2 with interval := none } = e.2
    rw [← h e he]
  rw [mapIntervals_table, hmap]

theorem actOnDeadlines_index : ∀ (l : List Nat) (s : State),
    (actOnDeadlines l s).table.index = s.table.index
  | [], _ => rfl
  | k :: rest, s => (actOnDeadlines_index rest _).trans (actOnDeadline_punchStep k s).index

theorem actOnDeadlines_zones : ∀ (l : List Nat) (s : State), (actOnDeadlines l s).zones = s.zones
  | [], _ => rfl
  | k :: rest, s => (actOnDeadlines_zones rest _).trans (actOnDeadline_punchStep k s).zones

theorem enterRunning_frame {s : State} (hq : s.link.request = none) :
    EnteredFrame s (enterRunning s) := by
  have hrun := enterRunning_runFrame s
  have hrequest : (entryDeadlines (doorsRunning s)).link.request = none :=
    (actOnDeadlines_request _ _).trans hq
  have hfree := resumeLink_freeFrame hrequest
  rw [← enterRunning_eq] at hfree
  have hindex : (entryDeadlines (doorsRunning s)).table.index = s.table.index :=
    actOnDeadlines_index _ (dropDue (doorsRunning s))
  have hzones : (entryDeadlines (doorsRunning s)).zones = s.zones :=
    actOnDeadlines_zones _ (dropDue (doorsRunning s))
  refine ⟨hrun.clock, hrun.mode, hrun.cal, hrun.lines, hfree.zones.trans hzones, fun d => ?_, hrun.pay,
    hrun.bells, hrun.fireState, hrun.evacMask, hrun.capacity, hfree.index.trans hindex, fun hoff => ?_,
    hrun.setup, hrun.configValid, hrun.runMark, hrun.flags⟩
  · have hdoor : (enterRunning s).doors[d] = recomputedDoor (setRun .running s) s.doors[d] := by
      rw [hrun.doors]
      exact mapDoors_door _ _ d
    rw [hdoor, recomputedDoor_entry, recomputedDoor_mark]
    exact ⟨rfl, rfl⟩
  · have hnil := slotsByDeadline_of_off (s := doorsRunning s) hoff
      fun j => j.deadline ≤ (doorsRunning s).clock.now.sec
    have htable : (entryDeadlines (doorsRunning s)).table = s.table := by
      unfold entryDeadlines
      rw [hnil]
      exact mapIntervals_off (s := doorsRunning s) hoff _
    exact (hfree.off (by rw [htable]; exact hoff)).trans htable

/-! ### The state that a load puts in force -/

/-- The state after step 5 of R162. -/
def rosterDone (b : SetupBlock) (s : State) : State :=
  if b.reload = true then
    { s with table := rosterTable s.ram b b.rosterCount, zones := emptied s.zones }
  else s

/-- The state whose tables come into force: the roster made, the result word written. -/
def resultWritten (b : SetupBlock) (s : State) : State :=
  { rosterDone b s with
    ram := writeBytes (rosterDone b s).ram (rosterDone b s).regs.setupAddr 0 [0, 0, 0, 0] }

/-- The state after a load that succeeds. -/
def loadSucceeded (b : SetupBlock) (s : State) : State :=
  loadDone (loadTime b (putInForce s.ram b (resultWritten b s)))

theorem rosterDone_link (b : SetupBlock) (s : State) :
    (rosterDone b s).linkAnswers = s.linkAnswers ∧ (rosterDone b s).regs = s.regs ∧
      (rosterDone b s).ram = s.ram ∧ (rosterDone b s).link = s.link := by
  unfold rosterDone
  split <;> exact ⟨rfl, rfl, rfl, rfl⟩

theorem completeLoad_of_success {s : State} (ha : s.linkAnswers = [])
    (hnone : firstFault (setupTests s (readSetup s.ram s.regs.setupAddr)) = none)
    (hall : (allReads s.ram (readSetup s.ram s.regs.setupAddr)).all (·.fault.isNone) = true)
    (hfits : (readSetup s.ram s.regs.setupAddr).reload = true →
      ∀ k < (readSetup s.ram s.regs.setupAddr).rosterCount,
        RosterFits s.ram (readSetup s.ram s.regs.setupAddr) k) :
    (completeLoad s).2 = loadSucceeded (readSetup s.ram s.regs.setupAddr) s := by
  have hqueue := queueTooLong_of_firstFault hnone
  have hroster : rosterOrFix (loadCalendar s.ram (readSetup s.ram s.regs.setupAddr))
      (readSetup s.ram s.regs.setupAddr) s
      = (none, rosterDone (readSetup s.ram s.regs.setupAddr) s) := by
    unfold rosterDone
    by_cases hreload : (readSetup s.ram s.regs.setupAddr).reload = true
    · rw [if_pos hreload, rosterOrFix_reload hreload, rosterStep_pass hqueue (answeredWell_nil ha _)
        (hfits hreload), ticked_nil ha]
    · rw [if_neg hreload, rosterOrFix_kept (Bool.eq_false_of_not_eq_true hreload) _ hqueue]
  have hsteps := loadSteps_of_success (linkAccess_nil ha) hnone (readEntries_done ha hall) hroster
  have hsucceed : succeedLoad s.ram (readSetup s.ram s.regs.setupAddr)
      (rosterDone (readSetup s.ram s.regs.setupAddr) s)
      = (none, loadSucceeded (readSetup s.ram s.regs.setupAddr) s) := by
    unfold succeedLoad writeResult
    rw [linkWrite_nil ((rosterDone_link _ s).1.trans ha)]
    rfl
  rw [completeLoad_of_done (hsteps.trans hsucceed)]

/-- The state before the entry to RUNNING that may follow a load: `t` is the end of the load of `b` that
put its tables in force in `u`. -/
structure LoadEnd (m : Memory) (b : SetupBlock) (u t : State) : Prop where
  run : t.regs.run = .halted
  configValid : t.regs.configValid = true
  runMark : t.regs.runMark = false
  done : flagSet .loadDone t = true
  mode : t.mode = b.modeWord
  pay : t.pay = loadPay m b
  plan : t.bells.plan = loadPlan m b
  passed : t.bells.passed = timedPassed b u.clock u.bells.passed
  cal : t.cal = timedCal b u.clock (loadCalendar m b)
  setup : t.link.setup = some b.inForce
  request : t.link.request = u.link.request
  table : t.table = (mapIntervals
    (fun i => { i with deadline := deadlineOf b.inForce.openLimit i.captured i.tIn })
    { u with table := { u.table with capacity := some (u.table.capacity.getD b.capacity) } }).table
  lines : ∀ l : LineNo, t.lines[l] = { u.lines[l] with desc := readReader m b.reader l.val }
  zones : ∀ i : Fin 15, t.zones[i] = readZone m b.zone i.val u.zones[i]
  doors : ∀ d : DoorNo, t.doors[d].entry = readDoor m b.door d.val ∧ t.doors[d].mark = u.doors[d].mark
  evacMask : t.fire.evacMask = BitVec.ofNat 8 b.evacMask
  fireState : t.fire.state = u.fire.state
  clock : t.clock = timedClock b u.clock
  ram : t.ram = u.ram
  answers : t.linkAnswers = u.linkAnswers

theorem tablesInForce_line (m : Memory) (b : SetupBlock) (s : State) (l : LineNo) :
    (tablesInForce m b s).lines[l] = { s.lines[l] with desc := readReader m b.reader l.val } := by
  simp [tablesInForce]

theorem tablesInForce_zone (m : Memory) (b : SetupBlock) (s : State) (i : Fin 15) :
    (tablesInForce m b s).zones[i] = readZone m b.zone i.val s.zones[i] := by
  simp [tablesInForce]

theorem loadEnded_eq {s : State} (h : s.regs.run ≠ .clearing) : loadEnded s = { s with
    regs := { s.regs with
      run := .halted, runMark := false, events := s.regs.events ||| Event.loadDone.mask } } := by
  unfold loadEnded
  rw [raise_eq h]
  rfl

theorem loadEnded_done {s : State} (h : s.regs.run ≠ .clearing) :
    flagSet .loadDone (loadEnded s) = true := flagSet_raise_same h .loadDone

theorem load_entry (r : Bool) (n : DoorEntry) (e : Door) : (e.load r n).entry = n := by
  simp [Door.load]

theorem loadEnd_of_loading {m : Memory} {b : SetupBlock} {u : State} (hr : u.regs.run = .loading)
    (htime : noTime u b = false) : LoadEnd m b u (loadEnded (loadTime b (putInForce m b u))) ∧
      (loadTime b (putInForce m b u)).regs.runMark = u.regs.runMark := by
  have hg : gatesRun (putInForce m b u) = false := by
    rw [gatesRun, show (putInForce m b u).regs.run = .loading from hr]
    rfl
  obtain ⟨circuits, hold⟩ := loadTime_holdStep (s := putInForce m b u) hg htime
  have hloading : (loadTime b (putInForce m b u)).regs.run ≠ .clearing := by
    rw [hold.run, show (putInForce m b u).regs.run = .loading from hr]
    decide
  have hdone := loadEnded_done hloading
  have hend := loadEnded_eq hloading
  obtain ⟨queue, reserved, holdGap, lost, seq, draws, events, hload⟩ := hold
  rw [hend] at hdone ⊢
  rw [hload] at hdone ⊢
  refine ⟨⟨rfl, rfl, rfl, hdone, rfl, rfl, rfl, rfl, rfl, rfl, rfl, rfl, tablesInForce_line m b u,
    tablesInForce_zone m b u, fun d => ?_, rfl, rfl, rfl, rfl, rfl⟩, rfl⟩
  have hdoor : (heldState queue reserved holdGap lost seq draws events { putInForce m b u with
      clock := timedClock b (putInForce m b u).clock
      cal := timedCal b (putInForce m b u).clock (putInForce m b u).cal
      bells := { (putInForce m b u).bells with
        passed := timedPassed b (putInForce m b u).clock (putInForce m b u).bells.passed
        circuits := circuits } }).doors[d] = u.doors[d].load b.modeWord.rehearsal (readDoor m b.door d.val) :=
    tablesInForce_door m b u d
  exact ⟨(congrArg Door.entry hdoor).trans (load_entry _ _ _), (congrArg Door.mark hdoor).trans (load_mark _ _ _)⟩

/-! ### The statement -/

section Success

variable {b : SetupBlock} {s : State} (hr : s.regs.run = .loading) (ha : s.linkAnswers = [])
  (hnone : firstFault (setupTests s b) = none)
include hr ha hnone

/-- A load that succeeds ends with its tables in force, and then runs if RUN was ordered with it. -/
theorem loadSucceeded_end (hq : s.link.request = none) : ∃ u t : State,
    LoadEnd s.ram b (resultWritten b s) u ∧ EnteredFrame u t ∧ loadSucceeded b s = t ∧
      t.regs.run = (if s.regs.runMark = true then RunState.running else RunState.halted) ∧
      (s.regs.runMark = false → t = u) := by
  obtain ⟨hanswers, hregs, hram, hlink⟩ := rosterDone_link b s
  have htime : noTime (resultWritten b s) b = false := by
    have h := noTime_of_firstFault hnone
    unfold noTime at h ⊢
    rw [show (resultWritten b s).clock = s.clock by unfold resultWritten rosterDone; split <;> rfl]
    exact h
  obtain ⟨hend, hmark⟩ := loadEnd_of_loading (m := s.ram)
    (show (resultWritten b s).regs.run = .loading from (congrArg Regs.run hregs).trans hr) htime
  have hrequest : (loadEnded (loadTime b (putInForce s.ram b (resultWritten b s)))).link.request = none :=
    hend.request.trans ((congrArg Link.request hlink).trans hq)
  have hmark : (loadTime b (putInForce s.ram b (resultWritten b s))).regs.runMark = s.regs.runMark :=
    hmark.trans (congrArg Regs.runMark hregs)
  have heq : loadSucceeded b s = if s.regs.runMark = true then
      enterRunning (loadEnded (loadTime b (putInForce s.ram b (resultWritten b s))))
      else loadEnded (loadTime b (putInForce s.ram b (resultWritten b s))) := by
    rw [loadSucceeded, loadDone_eq, hmark]
  by_cases hm : s.regs.runMark = true
  · rw [if_pos hm] at heq
    have hrun := ((enterRunning_runFrame _).steady
      (show (doorsRunning (loadEnded (loadTime b (putInForce s.ram b (resultWritten b s))))).linkAnswers = []
        from hend.answers.trans (hanswers.trans ha))).2
    exact ⟨_, _, hend, enterRunning_frame hrequest, heq, by rw [if_pos hm]; exact hrun,
      fun h => by rw [h] at hm; cases hm⟩
  · rw [if_neg hm] at heq
    exact ⟨_, _, hend, .refl _, heq, by rw [if_neg hm]; exact hend.run, fun _ => rfl⟩

end Success

theorem resultWritten_fields (b : SetupBlock) (s : State) :
    (resultWritten b s).clock = s.clock ∧ (resultWritten b s).bells = s.bells ∧
      (resultWritten b s).lines = s.lines ∧ (resultWritten b s).doors = s.doors ∧
      (resultWritten b s).fire = s.fire := by
  unfold resultWritten rosterDone
  split <;> exact ⟨rfl, rfl, rfl, rfl, rfl⟩

theorem resultWritten_reload {b : SetupBlock} (h : b.reload = true) (s : State) :
    (resultWritten b s).table = rosterTable s.ram b b.rosterCount ∧
      (resultWritten b s).zones = emptied s.zones := by
  unfold resultWritten rosterDone
  rw [if_pos h]
  exact ⟨rfl, rfl⟩

theorem resultWritten_kept {b : SetupBlock} (h : b.reload = false) (s : State) :
    (resultWritten b s).table = s.table ∧ (resultWritten b s).zones = s.zones := by
  unfold resultWritten rosterDone
  rw [if_neg (by rw [h]; decide)]
  exact ⟨rfl, rfl⟩

theorem capacity_of_firstFault {b : SetupBlock} {s : State} (h : firstFault (setupTests s b) = none)
    (hkept : b.reload = false) : s.table.capacity.getD b.capacity = b.capacity := by
  have hchanged : capacityChanged s b = false :=
    firstFault_eq_none h (capacityChanged s b, ⟨.capacityChange, .setup, 0⟩) (by simp [setupTests])
  have hnot : ¬ capacityChanged s b = true := by rw [hchanged]; decide
  rw [capacityChanged_iff] at hnot
  cases hcap : s.table.capacity with
  | none => rfl
  | some w =>
    by_contra hne
    exact hnot ⟨hkept, by rw [hcap]; simp, by rw [hcap]; simpa using hne⟩

/-- The capacity, the table and the zones that a load puts in force. -/
theorem loadEnd_table {b : SetupBlock} {s u t : State} (hnone : firstFault (setupTests s b) = none)
    (hend : LoadEnd s.ram b (resultWritten b s) u) (hframe : EnteredFrame u t)
    (hfits : b.reload = true → ∀ k < b.rosterCount, RosterFits s.ram b k) :
    t.table.capacity = some b.capacity ∧
    (b.reload = false → t.table.index = s.table.index ∧ u.table.workers = s.table.workers.map fun e =>
      (e.1, { e.2 with interval := e.2.interval.map fun i =>
        { i with deadline := deadlineOf b.inForce.openLimit i.captured i.tIn } })) ∧
    (b.reload = true → RosterHeld s.ram b b.rosterCount t.table) := by
  have hcapacity : (resultWritten b s).table.capacity.getD b.capacity = b.capacity := by
    by_cases hreload : b.reload = true
    · rw [(resultWritten_reload hreload s).1, rosterTable_capacity]
      rfl
    · have hkept := Bool.eq_false_of_not_eq_true hreload
      rw [(resultWritten_kept hkept s).1]
      exact capacity_of_firstFault hnone hkept
  have htable := hend.table
  rw [mapIntervals_table] at htable
  refine ⟨?_, fun hkept => ?_, fun hreload => ?_⟩
  · rw [hframe.capacity, htable]
    exact congrArg some hcapacity
  · rw [hframe.index, htable, (resultWritten_kept hkept s).1]
    exact ⟨rfl, rfl⟩
  · have hheld := rosterTable_held (hfits hreload)
    have hroster := (resultWritten_reload hreload s).1
    have hu : u.table = { rosterTable s.ram b b.rosterCount with capacity := some b.capacity } := by
      rw [hend.table, mapIntervals_off (by rw [hroster]; exact hheld.off), hcapacity, hroster]
    have ht : t.table = u.table := hframe.off (by rw [hu]; exact hheld.off)
    rw [ht, hu]
    exact { hheld with }

theorem loadEnd_zones {b : SetupBlock} {s u t : State} (hend : LoadEnd s.ram b (resultWritten b s) u)
    (hframe : EnteredFrame u t) (i : Fin 15) : t.zones[i] = { readZone s.ram b.zone i.val s.zones[i] with
      occupancy := if b.reload = true then 0 else s.zones[i].occupancy } := by
  have hzone : t.zones[i] = readZone s.ram b.zone i.val (resultWritten b s).zones[i] := by
    rw [hframe.zones]
    exact hend.zones i
  rw [hzone]
  by_cases hreload : b.reload = true
  · rw [(resultWritten_reload hreload s).2, if_pos hreload]
    simp [emptied, readZone]
  · rw [(resultWritten_kept (Bool.eq_false_of_not_eq_true hreload) s).2, if_neg hreload]
    rfl

theorem timedClock_valid {b : SetupBlock} {s : State} (h : firstFault (setupTests s b) = none) :
    (timedClock b s.clock).valid = true := by
  have htime := (noTime_eq_false (noTime_of_firstFault h)).1
  unfold timedClock
  split
  · next hall => exact htime hall
  · rfl

theorem timedClock_now (b : SetupBlock) (c : Clock) : (timedClock b c).rho = c.rho ∧
    (timedClock b c).now = if b.time = 4294967295 then c.now else ⟨b.time, 0⟩ := by
  unfold timedClock
  split <;> exact ⟨rfl, rfl⟩

/-- Settles O17, by the order of the tests, the first failing entry, and the tables that a load puts in
force. -/
theorem loadSuccessPutsTablesInForce : Obligations.LoadSuccessPutsTablesInForce := by
  unfold Obligations.LoadSuccessPutsTablesInForce
  intro host s m b cal entry fits failed rederived here hr ha
  have hcomplete : exec (.loadComplete host) s = .next (completeLoad (s.hostWrites host)).2 := by
    rw [exec_loadComplete, if_pos hr]
  have hfail : ∀ (code : LoadCode) (t : TableId) (k : Nat) (u : State), u.linkAnswers = [] →
      failLoad ⟨code, t, k⟩ u = { u with
        ram := writeBytes u.ram u.regs.setupAddr 0 ([byteOf code.code, byteOf t.code] ++ le16 k)
        regs := { u.regs with
          run := .halted
          configValid := false
          runMark := false
          events := u.regs.events ||| 0x002#12 } } := fun code t k u hu => failLoad_nil hu _
  rw [hcomplete]
  refine ⟨setupTests_in_order s b, fun hnone => ⟨fun e code hfind hcode => ?_, fun hall =>
    ⟨fun k hk hreload hfits hbad => ?_, fun hq hfits => ?_⟩⟩⟩
  · exact congrArg Host.Outcome.next
      ((completeLoad_of_entry (s := s.hostWrites host) ha hnone hfind hcode).trans
        (hfail code e.table e.entry (s.hostWrites host) ha))
  · refine congrArg Host.Outcome.next
      ((completeLoad_of_unfit (s := s.hostWrites host) ha hnone hall hk hreload hfits hbad).trans ?_)
    exact hfail .roster .roster k _ ha
  · have hsuccess := completeLoad_of_success (s := s.hostWrites host) ha hnone hall hfits
    obtain ⟨u, t, hend, hframe, ht, hrun, hsame⟩ := loadSucceeded_end (b := b) (s := s.hostWrites host)
      hr ha hnone hq
    obtain ⟨hclock, hbells, hlines, hdoors, hfire⟩ := resultWritten_fields b (s.hostWrites host)
    obtain ⟨hcapacity, hkept, hroster⟩ := loadEnd_table (s := s.hostWrites host) hnone hend hframe hfits
    have htclock : t.clock = timedClock b s.clock := by
      rw [hframe.clock, hend.clock, hclock]
      rfl
    have hvalid := timedClock_valid (s := s.hostWrites host) hnone
    obtain ⟨hrho, hnow⟩ := timedClock_now b s.clock
    refine ⟨t, congrArg Host.Outcome.next (hsuccess.trans ht), hrun, hframe.configValid.trans hend.configValid,
      hframe.runMark.trans hend.runMark, hframe.flags _ hend.done, hframe.mode.trans hend.mode,
      hframe.pay.trans hend.pay, ?_, ?_, ?_, hframe.setup.trans hend.setup, hcapacity,
      fun hreload => ⟨(hkept hreload).1, fun hm => ?_⟩, fun hreload => ?_, fun l => ?_, fun i => ?_,
      fun d => ?_, hframe.evacMask.trans hend.evacMask, ?_, ?_, ?_, ?_, fun hm => ?_⟩
    · rw [hframe.bells, hend.plan]
      rfl
    · rw [hframe.bells, hend.passed, hclock, hbells]
      rfl
    · rw [hframe.cal, hend.cal, hclock]
      rfl
    · rw [hsame hm, (hkept hreload).2]
      rfl
    · have hheld := hroster hreload
      exact ⟨hheld.workers, hheld.index, fun k hk => ⟨hheld.badgeHeld k hk, hheld.slotHeld k hk⟩⟩
    · rw [hframe.lines, hend.lines, hlines]
      rfl
    · exact loadEnd_zones (s := s.hostWrites host) hend hframe i
    · rw [(hframe.doors d).1, (hframe.doors d).2, (hend.doors d).1, (hend.doors d).2, hdoors]
      exact ⟨rfl, rfl⟩
    · rw [hframe.fireState, hend.fireState, hfire]
      rfl
    · rw [htclock]
      exact hvalid
    · rw [htclock, hrho]
    · rw [htclock, hnow]
    · rw [hsame hm, hend.ram, resultWritten, (rosterDone_link b _).2.2.1, (rosterDone_link b _).2.1]
      rfl

end Sys2Proof.Machine
end


section
/-! SUPPORT. The write of a head record of one entry or two, and a drain as the write of its head and a
drain of what is left (R172, R173). -/

namespace Sys2Proof.Machine

/-! ### The test and the write of a record's entries -/

/-- The journal entry `k` places past the position is FILLED. -/
def entryFilled (su : Setup) (s : State) (k : Nat) : Prop :=
  readCell s.ram (addrAt su.journal (journalOffset su s.link.journalPos k)) ≠ 0

section Test

variable {su : Setup} {s : State} (ha : s.linkAnswers = [])
include ha

theorem testEntries_empty : ∀ {l : List Nat}, (∀ k ∈ l, ¬ entryFilled su s k) →
    testEntries su l s = (.wrote, s)
  | [], _ => rfl
  | k :: rest, h => by
    have hk : readCell s.ram (addrAt su.journal (journalOffset su s.link.journalPos k)) = 0 :=
      not_not.1 (h k List.mem_cons_self)
    rw [testEntries, linkAccess_nil ha]
    dsimp only
    rw [testEntries_empty fun j hj => h j (List.mem_cons_of_mem k hj)]
    exact if_pos hk

theorem testEntries_filled : ∀ {l : List Nat}, (∃ k ∈ l, entryFilled su s k) →
    testEntries su l s = (.blocked, s)
  | [], h => by
    obtain ⟨k, hk, -⟩ := h
    cases hk
  | k :: rest, h => by
    rw [testEntries, linkAccess_nil ha]
    dsimp only
    by_cases hrest : ∃ j ∈ rest, entryFilled su s j
    · rw [testEntries_filled hrest]
    · have hempty : ∀ j ∈ rest, ¬ entryFilled su s j := fun j hj hf => hrest ⟨j, hj, hf⟩
      rw [testEntries_empty ha hempty]
      obtain ⟨j, hj, hf⟩ := h
      obtain rfl | hj := List.mem_cons.1 hj
      · exact if_neg hf
      · exact absurd hf (hempty j hj)

end Test

/-- The journal with entry `k` of a record at its place, its owner byte last. -/
def entryPut (su : Setup) (pos : Nat) (r : Record) (k : Nat) (m : Memory) : Memory :=
  writeBytes (writeBytes m su.journal (journalOffset su pos k + 1) (r.entryBytes k)) su.journal
    (journalOffset su pos k) [0xF1]

/-- The journal with every entry of a record at its place, the continuation first. -/
def recordPut (su : Setup) (pos : Nat) (r : Record) (m : Memory) : Memory :=
  entryPut su pos r 0 (if r.body.entries = 2 then entryPut su pos r 1 m else m)

theorem RecordBody.entries_cases (b : RecordBody) : b.entries = 1 ∨ b.entries = 2 := by
  cases b <;> simp [RecordBody.entries]

theorem writeEntries_nil {su : Setup} {s : State} (ha : s.linkAnswers = []) (r : Record) :
    writeEntries su r (if (r.body.entries == 2) = true then [1, 0] else [0]) s = (.wrote, { s with
      ram := recordPut su s.link.journalPos r s.ram
      link := { s.link with contWritten := true } }) := by
  have hone : ∀ (k : Nat) (rest : List Nat) (u : State), u.linkAnswers = [] →
      writeEntries su r (k :: rest) u = writeEntries su r rest { u with
        ram := entryPut su u.link.journalPos r k u.ram
        link := { u.link with contWritten := true } } := by
    intro k rest u hu
    rw [writeEntries, linkWrite_nil hu]
    dsimp only
    rw [linkWrite_nil (by exact hu)]
    rfl
  obtain h | h := r.body.entries_cases
  · rw [h, if_neg (by decide), hone 0 [] s ha, recordPut, if_neg (by rw [h]; decide)]
    rfl
  · rw [h, if_pos (by decide), hone 1 [0] s ha, hone 0 [] _ (by exact ha), recordPut, if_pos h]
    rfl

/-- The entries of the head record that its write tests: a continuation already filled for it is not
tested again (R175). -/
def headBlocked (su : Setup) (r : Record) (s : State) : Prop :=
  entryFilled su s 0 ∨ (r.body.entries = 2 ∧ s.link.contWritten = false ∧ entryFilled su s 1)

/-- The state after the head record has left the queue. -/
def headLeft (su : Setup) (r : Record) (s : State) : State :=
  leaveQueue su r.body.entries { s with
    ram := recordPut su s.link.journalPos r s.ram
    link := { s.link with contWritten := true } }

section Head

variable {su : Setup} {s : State} {r : Record} {rest : List Record} (hqueue : s.link.queue = r :: rest)
  (hsetup : s.link.setup = some su) (ha : s.linkAnswers = [])
include hqueue hsetup ha

theorem tryWriteHead_blocked (h : headBlocked su r s) : tryWriteHead s = (.blocked, s) := by
  have htest : testEntries su (if (r.body.entries == 2 && !s.link.contWritten) = true then [0, 1] else [0]) s
      = (.blocked, s) := by
    refine testEntries_filled ha ?_
    obtain h0 | ⟨htwo, hcont, h1⟩ := h
    · exact ⟨0, by split <;> simp, h0⟩
    · exact ⟨1, by simp [htwo, hcont], h1⟩
  unfold tryWriteHead
  rw [hqueue, hsetup]
  dsimp only
  rw [htest]

theorem tryWriteHead_writes (h : ¬ headBlocked su r s) : tryWriteHead s = (.wrote, headLeft su r s) := by
  have htest : testEntries su (if (r.body.entries == 2 && !s.link.contWritten) = true then [0, 1] else [0]) s
      = (.wrote, s) := by
    refine testEntries_empty ha fun k hk hf => h ?_
    split at hk
    · next hboth =>
      obtain rfl | rfl : k = 0 ∨ k = 1 := by simpa using hk
      · exact .inl hf
      · simp only [Bool.and_eq_true, beq_iff_eq, Bool.not_eq_true'] at hboth
        exact .inr ⟨hboth.1, hboth.2, hf⟩
    · obtain rfl : k = 0 := by simpa using hk
      exact .inl hf
  unfold tryWriteHead
  rw [hqueue, hsetup]
  dsimp only
  rw [htest]
  dsimp only
  rw [writeEntries_nil ha]
  rfl

end Head

/-! ### A drain, head by head -/

theorem waitingSlots_congr {s t : State} (h : t.table = s.table) : waitingSlots t = waitingSlots s :=
  slotsByDeadline_congr _ h

theorem withdrawWaits_congr {s t : State} (h : t.link.request = s.link.request) :
    withdrawWaits t = withdrawWaits s := by
  unfold withdrawWaits
  rw [h]

theorem headLeft_table (su : Setup) (r : Record) (s : State) : (headLeft su r s).table = s.table :=
  (leaveQueue_linkOnly su r.body.entries _).table

theorem headLeft_link (su : Setup) (r : Record) (s : State) : (headLeft su r s).link = { s.link with
    queue := s.link.queue.tail
    contWritten := false
    journalPos := (s.link.journalPos + r.body.entries) % 2 ^ su.journalLog
    fill := min (2 ^ su.journalLog) (s.link.fill + r.body.entries) } := by
  rw [headLeft, leaveQueue_link]

theorem headLeft_run (su : Setup) (r : Record) (s : State) : (headLeft su r s).regs.run = s.regs.run := by
  unfold headLeft leaveQueue
  dsimp only
  split
  · exact raise_run _ _
  · rfl

theorem drain_eq {s : State} (hr : s.regs.run = .running) :
    drain s = drainSteps (s.link.queue.length + 2 * waiters s + 1) s := if_pos hr

theorem drainSteps_blocked {s : State} {n : Nat} (hserve : serveAll (waiters s) s = s)
    (htry : tryWriteHead s = (.blocked, s)) : drainSteps (n + 1) s = s := by
  unfold drainSteps
  dsimp only
  rw [hserve, htry]
  exact ite_self _

theorem drainSteps_wrote {s t : State} {n : Nat} (hserve : serveAll (waiters s) s = s)
    (hmore : s.regs.run = .running ∧ s.link.queue.isEmpty = false)
    (htry : tryWriteHead s = (.wrote, t)) : drainSteps (n + 1) s = drainSteps n t := by
  rw [drainSteps, hserve, if_pos hmore, htry]

section Drain

variable {su : Setup} {s : State} {r : Record} {rest : List Record} (hqueue : s.link.queue = r :: rest)
  (hsetup : s.link.setup = some su) (ha : s.linkAnswers = []) (hr : s.regs.run = .running)
  (hwaiting : waitingSlots s = []) (hwithdraw : withdrawWaits s = false)
include hqueue hsetup ha hr hwaiting hwithdraw

theorem drain_of_blocked (h : headBlocked su r s) : drain s = s := by
  rw [drain_eq hr]
  exact drainSteps_blocked (serveAll_of_serveOne (serveOne_of_idle hwithdraw hwaiting) _)
    (tryWriteHead_blocked hqueue hsetup ha h)

/-- With nobody waiting, a drain whose head can be written goes on as a drain of what is left. -/
theorem drain_of_written (h : ¬ headBlocked su r s) : drain s = drain (headLeft su r s) := by
  have hserve := serveAll_of_serveOne (serveOne_of_idle hwithdraw hwaiting) (waiters s)
  have hwaiters : waiters (headLeft su r s) = waiters s := by
    unfold waiters
    rw [waitingSlots_congr (headLeft_table su r s)]
  have hlen : s.link.queue.length = (headLeft su r s).link.queue.length + 1 := by
    rw [headLeft_link, hqueue]
    rfl
  have hmore : s.regs.run = .running ∧ s.link.queue.isEmpty = false := ⟨hr, by rw [hqueue]; rfl⟩
  rw [drain_eq hr, drain_eq ((headLeft_run su r s).trans hr),
    drainSteps_wrote hserve hmore (tryWriteHead_writes hqueue hsetup ha h), hlen, hwaiters,
    Nat.add_right_comm]

end Drain

/-! ### Records behind others -/

/-- `t` has the queue of `s` with records behind it, and the journal as it was. -/
structure Behind (s t : State) : Prop where
  queue : ∃ more, t.link.queue = s.link.queue ++ more
  journalPos : t.link.journalPos = s.link.journalPos
  ram : t.ram = s.ram

theorem Behind.refl (s : State) : Behind s s := ⟨⟨[], (List.append_nil _).symm⟩, rfl, rfl⟩

theorem Behind.trans {s t u : State} (h : Behind s t) (k : Behind t u) : Behind s u := by
  obtain ⟨more, hmore⟩ := h.queue
  obtain ⟨yet, hyet⟩ := k.queue
  exact ⟨⟨more ++ yet, by rw [hyet, hmore, List.append_assoc]⟩, k.journalPos.trans h.journalPos,
    k.ram.trans h.ram⟩

theorem behind_of_eq {s t : State} (hqueue : t.link.queue = s.link.queue)
    (hpos : t.link.journalPos = s.link.journalPos) (hram : t.ram = s.ram) : Behind s t :=
  ⟨⟨[], by rw [hqueue, List.append_nil]⟩, hpos, hram⟩

theorem placeRecord_behind (reserved : Bool) (t : Stamp) (b : RecordBody) (s : State) :
    Behind s (placeRecord reserved t b s) := by
  have hlink := placeRecord_link reserved t b s
  exact ⟨⟨_, by rw [hlink]⟩, by rw [hlink], (placeRecord_linkStands reserved t b s).2⟩

theorem placeGap_behind (reserved : Bool) (s : State) : Behind s (placeGap reserved s) := by
  by_cases h : (s.link.holdGap ≠ 0 ∨ s.link.lost ≠ 0) ∧ (if reserved then 1 else 2) ≤ freePlaces s
  · have hgap : placeGap reserved s = placeRecord false s.clock.now (.holdGap s.link.holdGap s.link.lost)
        { s with link := { s.link with holdGap := 0, lost := 0 } } := if_pos h
    have hcounts : Behind s { s with link := { s.link with holdGap := 0, lost := 0 } } :=
      behind_of_eq rfl rfl rfl
    rw [hgap]
    exact hcounts.trans (placeRecord_behind _ _ _ _)
  · have hgap : placeGap reserved s = s := if_neg h
    rw [hgap]
    exact .refl s

theorem handOver_behind {s : State} (hqueue : s.link.queue ≠ []) (reserved : Bool) (t : Stamp)
    (b : RecordBody) : Behind s (handOver reserved t b s) := by
  have hnot : ¬ s.link.queue.isEmpty = true := by simpa using hqueue
  unfold handOver
  split
  · exact .refl s
  · split
    · exact behind_of_eq rfl rfl rfl
    · exact (placeGap_behind reserved s).trans (placeRecord_behind _ _ _ _)

theorem autoClose_behind {s : State} (hqueue : s.link.queue ≠ []) (slot : Nat) (cause : CloseCause) :
    Behind s (autoClose slot cause s) := by
  cases hw : workerAt s slot with
  | none =>
    unfold autoClose
    rw [hw]
    exact .refl s
  | some w =>
    cases hi : w.interval with
    | none =>
      rw [autoClose_of_off hw hi]
      exact .refl s
    | some i =>
      have hset : Behind s (setWorker slot (closing s.cal s.pay w i none).1 s) := behind_of_eq rfl rfl rfl
      rw [autoClose_eq cause hw hi]
      exact hset.trans (handOver_behind (s := setWorker slot _ s) hqueue _ _ _)

theorem freeWorker_behind (slot : Nat) (s : State) : Behind s (freeWorker slot s) := by
  unfold freeWorker
  split
  · exact .refl s
  · unfold dropOccupant modZone
    split <;> exact behind_of_eq rfl rfl rfl

/-! ### A drain that serves a waiter and then finds its head held up -/

/-- A drain whose one waiter is served first, and whose head finds a FILLED entry. -/
theorem drain_of_served {su : Setup} {s t : State} (hsetup : s.link.setup = some su)
    (ha : s.linkAnswers = []) (hr : s.regs.run = .running) (hqueue : s.link.queue ≠ [])
    (hfilled : entryFilled su s 0) (hframe : RunFrame s t) (hbehind : Behind s t)
    (hone : serveOne s = some t) (hnone : serveOne t = none) : drain s = t := by
  have hserve : serveAll (waiters s) s = t := by
    rw [waiters, serveAll, hone]
    exact serveAll_of_serveOne hnone _
  obtain ⟨more, hmore⟩ := hbehind.queue
  obtain ⟨r, rest, hcons⟩ := List.exists_cons_of_ne_nil hqueue
  rw [hcons] at hmore
  have hfull : entryFilled su t 0 := by
    unfold entryFilled
    rw [hbehind.ram, hbehind.journalPos]
    exact hfilled
  have htry : tryWriteHead t = (.blocked, t) :=
    tryWriteHead_blocked hmore (hframe.setup.trans hsetup) (hframe.steady ha).1 (.inl hfull)
  rw [drain_eq hr]
  unfold drainSteps
  dsimp only
  rw [hserve, htry]
  exact ite_self _

theorem serveOne_closing {s : State} {slot : Nat} (hr : s.regs.run = .running) (hroom : hasRoom s = true)
    (hwithdraw : withdrawWaits s = false) (hwaiting : waitingSlots s = [slot]) :
    serveOne s = some (autoClose slot .deadline s) := by
  unfold serveOne
  rw [if_pos ⟨hr, hroom⟩, hwithdraw, hwaiting]
  rfl

theorem serveOne_withdraw {s : State} (hr : s.regs.run = .running) (hroom : hasRoom s = true)
    (hwithdraw : withdrawWaits s = true) : serveOne s = some (resumeWithdraw s) := by
  unfold serveOne
  rw [if_pos ⟨hr, hroom⟩, hwithdraw]
  rfl

theorem workerAt_autoClose_same {s : State} {slot : Nat} {w : Worker} (hw : workerAt s slot = some w)
    (cause : CloseCause) : ∃ v, workerAt (autoClose slot cause s) slot = some v ∧ v.interval = none := by
  cases hi : w.interval with
  | none => exact ⟨w, by rw [autoClose_of_off hw hi]; exact hw, hi⟩
  | some i =>
    refine ⟨(closing s.cal s.pay w i none).1, ?_, rfl⟩
    rw [autoClose_eq cause hw hi]
    unfold workerAt
    rw [autoClosed_table]
    exact lookupSlot_putSlot_same slot _ _

/-- Nobody waits once the only waiter's closing has been made. -/
theorem waitingSlots_autoClose {s : State} {slot : Nat} (hs : SlotOrdered s) (cause : CloseCause)
    (hwaiting : waitingSlots s = [slot]) : waitingSlots (autoClose slot cause s) = [] := by
  refine List.eq_nil_iff_forall_not_mem.2 fun k hk => ?_
  obtain ⟨w, i, hw, hi, hwait⟩ := (mem_waitingSlots (autoClose_ordered slot cause hs)).1 hk
  by_cases hne : k = slot
  · subst hne
    obtain ⟨v, -, hv, -, -⟩ := (mem_waitingSlots hs).1 (hwaiting ▸ List.mem_singleton_self k)
    obtain ⟨x, hx, hoff⟩ := workerAt_autoClose_same hv cause
    rw [hw] at hx
    cases hx
    rw [hoff] at hi
    cases hi
  · rw [workerAt_autoClose_other hne] at hw
    have hmem := (mem_waitingSlots hs).2 ⟨w, i, hw, hi, hwait⟩
    rw [hwaiting] at hmem
    exact hne (List.mem_singleton.1 hmem)

theorem workerAt_freeWorker {s : State} {slot : Nat} {w : Worker} (hw : workerAt s slot = some w)
    (k : Nat) : workerAt (freeWorker slot s) k = if k = slot then none else workerAt s k := by
  have htable : (freeWorker slot s).table.workers = dropSlot slot s.table.workers := by
    rw [freeWorker_of_used hw, modZone_table]
  unfold workerAt
  rw [htable]
  split
  · next h => rw [h, lookupSlot_dropSlot_same]
  · next h => rw [lookupSlot_dropSlot_other h]

/-- Nobody waits once the forced withdrawal of the only waiter has been made. -/
theorem waitingSlots_forcedWithdraw {s : State} {slot : Nat} {w : Worker} (hs : SlotOrdered s)
    (hw : workerAt s slot = some w) (hwaiting : waitingSlots s = [slot] ∨ waitingSlots s = []) :
    waitingSlots (forcedWithdraw slot s) = [] := by
  obtain ⟨v, hv, -⟩ := workerAt_autoClose_same hw .withdraw
  have hclosed := autoClose_ordered slot .withdraw hs
  have hordered : SlotOrdered (freeWorker slot (autoClose slot .withdraw s)) := by
    unfold SlotOrdered
    rw [freeWorker_of_used hv, modZone_table]
    exact dropSlot_sorted slot hclosed
  rw [forcedWithdraw_of_worker hv]
  have htable : (holdOutput (.statement (statementRec (autoClose slot .withdraw s).pay
      (autoClose slot .withdraw s).clock.now slot v false)) (freeWorker slot (autoClose slot .withdraw s))).table
      = (freeWorker slot (autoClose slot .withdraw s)).table := rfl
  rw [waitingSlots_congr htable]
  refine List.eq_nil_iff_forall_not_mem.2 fun k hk => ?_
  obtain ⟨x, i, hx, hi, hwait⟩ := (mem_waitingSlots hordered).1 hk
  rw [workerAt_freeWorker hv] at hx
  split at hx
  · cases hx
  · next hne =>
    rw [workerAt_autoClose_other hne] at hx
    have hmem := (mem_waitingSlots hs).2 ⟨x, i, hx, hi, hwait⟩
    obtain hwaiting | hwaiting := hwaiting
    · rw [hwaiting] at hmem
      exact hne (List.mem_singleton.1 hmem)
    · rw [hwaiting] at hmem
      cases hmem

end Sys2Proof.Machine
end


section
/-! SUPPORT. A request's own command, and a drain that serves a waiter first (R113, R166, R173). -/

namespace Sys2Proof.Machine

/-! ### The command of a request -/

/-- The row of a request carries it out as R166 gives. -/
theorem exec_carriesOut {c : Instr} {r : Req} {notify : Bool} (h : c.request = some (r, notify)) :
    ∃ f : State → State, ∀ s, exec c s = .next (carryOut r notify f s) := by
  cases c
  all_goals
    simp only [Instr.request, Option.some.injEq, Prod.mk.injEq, reduceCtorEq] at h
  all_goals
    obtain ⟨rfl, rfl⟩ := h
    exact ⟨_, fun _ => rfl⟩

theorem carryOut_congr_request {s : State} {r : Req} {notify : Bool} (f : State → State)
    (hr : s.regs.run = .running) (hret : s.link.ret = none) (hmuster : s.link.muster = none)
    (hq : s.link.request = some ⟨r, notify, .taken, 0, 0⟩) :
    carryOut r notify f s
      = carryOut r notify f { s with link := { s.link with request := none } } := by
  have htake : mayTake r notify { s with link := { s.link with request := none } } = true := by
    simp [mayTake, hr, hret, hmuster]
  rw [carryOut_taken hr r notify 0 0 hq f]
  exact (if_pos htake).symm

theorem mayTake_other {s : State} {r : Req} {notify : Bool} {q : Request} (hq : s.link.request = some q)
    (hother : q.stage ≠ .taken ∨ q.req ≠ r ∨ q.notify ≠ notify) : mayTake r notify s = false := by
  obtain h | h | h := hother <;> simp [mayTake, hq, h]

/-! ### A head that can be written -/

theorem headLeft_eq {su : Setup} {r : Record} {rest : List Record} {s : State}
    (hqueue : s.link.queue = r :: rest) :
    let fill := min (2 ^ su.journalLog) (s.link.fill + r.body.entries)
    let left := { s with
      ram := recordPut su s.link.journalPos r s.ram
      link := { s.link with
        queue := rest
        contWritten := false
        journalPos := (s.link.journalPos + r.body.entries) % 2 ^ su.journalLog
        fill := fill } }
    headLeft su r s = if s.link.fill < su.threshold ∧ su.threshold ≤ fill then raise .journal left
      else left := by
  have htail : s.link.queue.tail = rest := by rw [hqueue]; rfl
  rw [← htail]
  rfl

/-! ### A drain that serves a waiter first -/

theorem withdrawTest_passed {s : State} {slot : Nat} {force : Bool} {out : OutArea}
    (h : withdrawTest s slot force out = none) : ∃ w, workerAt s slot = some w := by
  unfold withdrawTest at h
  split at h
  · cases h
  · split at h
    · cases h
    · next w hw => exact ⟨w, hw⟩

theorem serveWithdraw_of_passed {s : State} {slot : Nat} {out : OutArea} {notify : Bool}
    (hr : s.regs.run = .running) (hroom : hasRoom s = true)
    (hq : s.link.request = some ⟨.withdraw slot true out, notify, .deferred, 0, 0⟩)
    (htest : withdrawTest s slot true out = none) :
    serveWithdraw s = forcedWithdraw slot s ∧ serveOne s = some (forcedWithdraw slot s) := by
  have hwaits : withdrawWaits s = true := by
    unfold withdrawWaits
    rw [hq]
    rfl
  have hresume : resumeWithdraw s = forcedWithdraw slot s := by
    unfold resumeWithdraw
    rw [hq]
    dsimp only
    rw [htest]
  rw [← hresume]
  exact ⟨if_pos ⟨hr, hroom, hwaits⟩, serveOne_withdraw hr hroom hwaits⟩

theorem forcedWithdraw_waits {s : State} {slot : Nat} {w : Worker} (hw : workerAt s slot = some w) :
    withdrawWaits (forcedWithdraw slot s) = false := by
  obtain ⟨v, hv, -⟩ := workerAt_autoClose_same hw .withdraw
  rw [forcedWithdraw_of_worker hv]
  unfold withdrawWaits holdOutput setStage
  dsimp only
  cases (freeWorker slot (autoClose slot .withdraw s)).link.request <;> rfl

theorem forcedWithdraw_behind {s : State} {slot : Nat} {w : Worker} (hw : workerAt s slot = some w)
    (hqueue : s.link.queue ≠ []) : Behind s (forcedWithdraw slot s) := by
  obtain ⟨v, hv, -⟩ := workerAt_autoClose_same hw .withdraw
  rw [forcedWithdraw_of_worker hv]
  exact ((autoClose_behind hqueue slot .withdraw).trans (freeWorker_behind slot _)).trans
    (behind_of_eq rfl rfl rfl)

section Held

variable {su : Setup} {s : State} (hsetup : s.link.setup = some su) (ha : s.linkAnswers = [])
  (hr : s.regs.run = .running) (hqueue : s.link.queue ≠ []) (hfilled : entryFilled su s 0)
  (hroom : hasRoom s = true) (hs : SlotOrdered s)
include hsetup ha hr hqueue hfilled hroom hs

theorem drain_serves_closing {slot : Nat} (hwaiting : waitingSlots s = [slot])
    (hwithdraw : withdrawWaits s = false) : drain s = serveClosing s := by
  have hnone : serveOne (autoClose slot .deadline s) = none :=
    serveOne_of_idle ((withdrawWaits_congr (autoClose_request slot .deadline s)).trans hwithdraw)
      (waitingSlots_autoClose hs .deadline hwaiting)
  rw [serveClosing_cons hwaiting hr hroom hwithdraw]
  exact drain_of_served hsetup ha hr hqueue hfilled (autoClose_runFrame _ _ _)
    (autoClose_behind hqueue _ _) (serveOne_closing hr hroom hwithdraw hwaiting) hnone

theorem drain_serves_withdraw {slot : Nat} {out : OutArea} {notify : Bool}
    (hq : s.link.request = some ⟨.withdraw slot true out, notify, .deferred, 0, 0⟩)
    (htest : withdrawTest s slot true out = none)
    (hwaiting : waitingSlots s = [slot] ∨ waitingSlots s = []) : drain s = serveWithdraw s := by
  obtain ⟨w, hw⟩ := withdrawTest_passed htest
  obtain ⟨hserve, hone⟩ := serveWithdraw_of_passed hr hroom hq htest
  rw [hserve]
  exact drain_of_served hsetup ha hr hqueue hfilled (forcedWithdraw_runFrame _ _)
    (forcedWithdraw_behind hw hqueue) hone
    (serveOne_of_idle (forcedWithdraw_waits hw) (waitingSlots_forcedWithdraw hs hw hwaiting))

end Held

end Sys2Proof.Machine
end


section
/-! CERTIFICATE. The memory link in its order (R56, R113, R166, R172 to R176). -/

namespace Sys2Proof.Machine

/-! ### A record of two entries (R172) -/

theorem handOver_begins {s : State} (time : Stamp) (b : RecordBody) (hrun : s.regs.run = .running)
    (hqueue : s.link.queue = []) (hgap : s.link.holdGap = 0) (hlost : s.link.lost = 0)
    (hroom : 2 ≤ freePlaces s) : handOver false time b s = beginWrites (joined false time b s) := by
  rw [handOver_eq (by simp [hrun]) (placeGap_self hgap (.inl hlost)) (.inr (by omega)), hqueue,
    placeRecord_of_room hroom]
  rfl

section TwoEntries

variable {su : Setup} {s : State} {b : RecordBody} (time : Stamp) (hrun : s.regs.run = .running)
  (hsetup : s.link.setup = some su) (hanswers : s.linkAnswers = []) (hqueue : s.link.queue = [])
  (hgap : s.link.holdGap = 0) (hlost : s.link.lost = 0) (hroom : 2 ≤ freePlaces s)
include hrun hsetup hanswers hqueue hgap hlost hroom

theorem handOver_headLeft
    (hfree : ¬ headBlocked su ⟨s.link.seq, time, b, s.link.draws⟩ (joined false time b s)) :
    handOver false time b s
      = headLeft su ⟨s.link.seq, time, b, s.link.draws⟩ (joined false time b s) := by
  have hhead : (joined false time b s).link.queue = [⟨s.link.seq, time, b, s.link.draws⟩] := by
    simp [joined, hqueue]
  have hwrite := tryWriteHead_writes hhead hsetup hanswers hfree
  have hrest : (headLeft su ⟨s.link.seq, time, b, s.link.draws⟩ (joined false time b s)).link.queue = [] := by
    rw [headLeft_link, hhead]
    rfl
  rw [handOver_begins time b hrun hqueue hgap hlost hroom]
  unfold beginWrites
  rw [if_pos (by exact hrun), hwrite]
  dsimp only
  rw [writeHeads, hrest]
  rfl

theorem handOver_headBlocked
    (hfull : headBlocked su ⟨s.link.seq, time, b, s.link.draws⟩ (joined false time b s)) :
    handOver false time b s = raise .holding (joined false time b s) := by
  have hhead : (joined false time b s).link.queue = [⟨s.link.seq, time, b, s.link.draws⟩] := by
    simp [joined, hqueue]
  have hwrite := tryWriteHead_blocked hhead hsetup hanswers hfull
  rw [handOver_begins time b hrun hqueue hgap hlost hroom]
  unfold beginWrites
  rw [if_pos (by exact hrun), hwrite]

end TwoEntries

theorem headLeft_ram (su : Setup) (r : Record) (s : State) :
    (headLeft su r s).ram = recordPut su s.link.journalPos r s.ram := leaveQueue_ram _ _ _

theorem headLeft_journal {su : Setup} {r : Record} {rest : List Record} {s : State}
    (hqueue : s.link.queue = r :: rest) (hrun : s.regs.run = .running) (hbelow : s.link.fill < su.threshold)
    (habove : su.threshold ≤ min (2 ^ su.journalLog) (s.link.fill + r.body.entries)) :
    flagSet .journal (headLeft su r s) = true := by
  rw [headLeft_eq hqueue]
  dsimp only
  rw [if_pos ⟨hbelow, habove⟩]
  exact flagSet_raise_same (by simp [hrun]) _

/-! ### The hold gap (R56, R174) -/

/-- The counts that wait to be reported, set to 0. -/
def uncounted (s : State) : State := { s with link := { s.link with holdGap := 0, lost := 0 } }

theorem placeGap_placed {reserved : Bool} {s : State} (hcount : s.link.holdGap ≠ 0 ∨ s.link.lost ≠ 0)
    (hbeside : (if reserved = true then 1 else 2) ≤ freePlaces s) :
    placeGap reserved s
      = placeRecord false s.clock.now (.holdGap s.link.holdGap s.link.lost) (uncounted s) :=
  if_pos ⟨hcount, hbeside⟩

theorem placeGap_alone {reserved : Bool} {s : State}
    (hbeside : freePlaces s < (if reserved = true then 1 else 2)) : placeGap reserved s = s :=
  if_neg fun h => absurd h.2 (Nat.not_le.2 hbeside)

/-- A placed record leaves what `joined` leaves, whether or not HOLD_FULL is raised. -/
theorem freePlaces_placeRecord (reserved : Bool) (t : Stamp) (b : RecordBody) (s : State) :
    freePlaces (placeRecord reserved t b s) = freePlaces (joined reserved t b s) := by
  have honly := placeRecord_linkOnly reserved t b s
  have hcap : queueCap (placeRecord reserved t b s) = queueCap (joined reserved t b s) := by
    unfold queueCap
    rw [honly.table]
    rfl
  unfold freePlaces
  rw [hcap, placeRecord_link]
  rfl

theorem flagSet_placeRecord_full {reserved : Bool} {t : Stamp} {b : RecordBody} {s : State}
    (hrun : s.regs.run ≠ .clearing) (hfree : freePlaces s ≠ 0)
    (hfull : freePlaces (joined reserved t b s) = 0) :
    flagSet .holdFull (placeRecord reserved t b s) = true := by
  rw [placeRecord_eq, if_pos ⟨hfree, hfull⟩]
  exact flagSet_raise_same (s := joined reserved t b s) hrun _

theorem flagSet_placeRecord {e : Event} {s : State} (reserved : Bool) (t : Stamp) (b : RecordBody)
    (h : flagSet e s = true) : flagSet e (placeRecord reserved t b s) = true := by
  rw [placeRecord_eq]
  split
  · exact flagSet_raise_of_flagSet _ h
  · exact h

/-- The gap and the record behind it fill the queue: one of the two placings raises HOLD_FULL. -/
theorem placed_full {reserved : Bool} {s : State} (hrun : s.regs.run ≠ .clearing) (t u : Stamp)
    (b gap : RecordBody) (hbeside : freePlaces s = (if reserved = true then 1 else 2)) :
    flagSet .holdFull (placeRecord reserved t b (placeRecord false u gap s)) = true := by
  have hone := freePlaces_joined u gap s
  have hplaced := freePlaces_placeRecord false u gap s
  cases reserved with
  | true =>
    have hbeside : freePlaces s = 1 := hbeside
    exact flagSet_placeRecord _ _ _
      (flagSet_placeRecord_full hrun (by omega) (by omega))
  | false =>
    have hbeside : freePlaces s = 2 := hbeside
    have hrun1 := (placeRecord_linkStands false u gap s).1
    exact flagSet_placeRecord_full (by rw [hrun1]; exact hrun) (by omega)
      (by rw [freePlaces_joined]; omega)

theorem placeGap_stands (reserved : Bool) (s : State) :
    (placeGap reserved s).regs.run = s.regs.run ∧ (placeGap reserved s).ram = s.ram := by
  by_cases h : (s.link.holdGap ≠ 0 ∨ s.link.lost ≠ 0) ∧ (if reserved then 1 else 2) ≤ freePlaces s
  · rw [placeGap_placed h.1 h.2]
    exact placeRecord_linkStands _ _ _ (uncounted s)
  · have hself : placeGap reserved s = s := if_neg h
    rw [hself]
    exact ⟨rfl, rfl⟩

section Waits

variable {reserved : Bool} {s : State} (hrun : s.regs.run ≠ .clearing)
  (hwaits : s.regs.run ≠ .running ∨ s.link.queue ≠ []) (hroom : reserved = true ∨ 1 ≤ freePlaces s)
include hrun hwaits hroom

/-- A record that waits for its write, with whatever gap record goes ahead of it. -/
theorem handOver_joins (t : Stamp) (b : RecordBody) :
    handOver reserved t b s =
      if s.link.queue.isEmpty then raise .holding (placeRecord reserved t b (placeGap reserved s))
      else placeRecord reserved t b (placeGap reserved s) := by
  have hnot : ¬(reserved = false ∧ freePlaces s = 0) := by
    rintro ⟨rfl, hfree⟩
    rcases hroom with h | h
    · cases h
    · omega
  have hstill : (placeRecord reserved t b (placeGap reserved s)).regs.run = s.regs.run :=
    (placeRecord_linkStands _ _ _ _).1.trans (placeGap_stands reserved s).1
  have hbegin (hempty : s.link.queue.isEmpty = true) :
      beginWrites (placeRecord reserved t b (placeGap reserved s))
        = raise .holding (placeRecord reserved t b (placeGap reserved s)) := by
    refine if_neg ?_
    rw [hstill]
    exact hwaits.resolve_right (by simp [List.isEmpty_iff.1 hempty])
  unfold handOver
  rw [if_neg hrun, if_neg hnot]
  dsimp only
  split
  · next hempty => exact hbegin hempty
  · rfl

theorem handOver_joins_link (t : Stamp) (b : RecordBody) :
    (handOver reserved t b s).link = (placeRecord reserved t b (placeGap reserved s)).link := by
  rw [handOver_joins hrun hwaits hroom]
  exact raiseIf_link _ _ _

theorem handOver_joins_ram (t : Stamp) (b : RecordBody) : (handOver reserved t b s).ram = s.ram := by
  have hplaced : (placeRecord reserved t b (placeGap reserved s)).ram = s.ram :=
    (placeRecord_linkStands _ _ _ _).2.trans (placeGap_stands reserved s).2
  rw [handOver_joins hrun hwaits hroom]
  split
  · exact (raise_ram _ _).trans hplaced
  · exact hplaced

theorem flagSet_handOver_holding (t : Stamp) (b : RecordBody) (hqueue : s.link.queue = []) :
    flagSet .holding (handOver reserved t b s) = true := by
  have hplaced : (placeRecord reserved t b (placeGap reserved s)).regs.run = s.regs.run :=
    (placeRecord_linkStands _ _ _ _).1.trans (placeGap_stands reserved s).1
  rw [handOver_joins hrun hwaits hroom, hqueue]
  exact flagSet_raise_same (by rw [hplaced]; exact hrun) _

theorem flagSet_handOver_joins {e : Event} (t : Stamp) (b : RecordBody)
    (h : flagSet e (placeRecord reserved t b (placeGap reserved s)) = true) :
    flagSet e (handOver reserved t b s) = true := by
  rw [handOver_joins hrun hwaits hroom]
  split
  · exact flagSet_raise_of_flagSet _ h
  · exact h

end Waits

theorem placed_gap_link (reserved : Bool) (s : State) (t u : Stamp) (b gap : RecordBody) :
    (placeRecord reserved t b (placeRecord false u gap (uncounted s))).link = { s.link with
      queue := s.link.queue ++
        [⟨s.link.seq, u, gap, s.link.draws⟩, ⟨(s.link.seq + 1) % 65536, t, b, s.link.draws + 1⟩]
      seq := (s.link.seq + 2) % 65536
      draws := s.link.draws + 2
      holdGap := 0
      lost := 0
      reserved := if reserved = true then s.link.reserved - 1 else s.link.reserved } := by
  have hseq : ((s.link.seq + 1) % 65536 + 1) % 65536 = (s.link.seq + 2) % 65536 := by omega
  rw [placeRecord_link, placeRecord_link, ← hseq]
  simp only [uncounted, List.append_assoc, List.singleton_append]
  rfl

/-! ### The resumption (R176) -/

theorem whileRunning_eq (f : State → State) {s : State} (h : s.regs.run = .running) :
    whileRunning f s = f s := if_pos h

theorem whileRunning_skip (f : State → State) {s : State} (h : s.regs.run ≠ .running) :
    whileRunning f s = s := if_neg h

/-- With no error response to come, all four steps of the resumption are carried out. -/
theorem resumeLink_steady {s : State} (hr : s.regs.run = .running) (ha : s.linkAnswers = []) :
    resumeLink s = restartPoll (startMuster (drain (writeHeld (settleReturn s)))) := by
  have hret := (settleReturn_runFrame s).steady ha
  have hheld := (writeHeld_runFrame (settleReturn s)).steady hret.1
  have hdrain := (drain_runFrame (writeHeld (settleReturn s))).steady hheld.1
  unfold resumeLink
  rw [whileRunning_eq settleReturn hr, whileRunning_eq writeHeld (hret.2.trans hr),
    whileRunning_eq drain ((hheld.2.trans hret.2).trans hr),
    whileRunning_eq startMuster (((hdrain.2.trans hheld.2).trans hret.2).trans hr)]

/-- A resumption whose pending return meets an error goes no further. -/
theorem resumeLink_stopped {s : State} (hr : s.regs.run = .running)
    (hstop : (settleReturn s).regs.run ≠ .running) : resumeLink s = restartPoll (settleReturn s) := by
  unfold resumeLink
  rw [whileRunning_eq settleReturn hr, whileRunning_skip writeHeld hstop, whileRunning_skip drain hstop,
    whileRunning_skip startMuster hstop]

theorem settleReturn_error {s : State} {su : Setup} {ret : Return} {rest : List Bool}
    (hret : s.link.ret = some ret) (hsetup : s.link.setup = some su) (ha : s.linkAnswers = true :: rest) :
    settleReturn s = linkFail { s with linkAnswers := rest } := by
  unfold settleReturn
  rw [hret, hsetup]
  dsimp only
  rw [linkWrite_error ha]

/-! ### The obligation -/

theorem requestCommands_order {c : Instr} {r : Req} {notify : Bool} {s : State}
    (hc : c.request = some (r, notify)) (hr : s.regs.run = .running) :
    (s.link.ret = none → s.link.muster = none → s.link.request = some ⟨r, notify, .taken, 0, 0⟩ →
      exec c s = exec c { s with link := { s.link with request := none } }) ∧
    ∀ q : Request, s.link.request = some q →
      q.stage ≠ .taken ∨ q.req ≠ r ∨ q.notify ≠ notify → exec c s = .next s := by
  obtain ⟨f, hf⟩ := exec_carriesOut hc
  refine ⟨fun hret hmuster hq => ?_, fun q hq hother => ?_⟩
  · rw [hf, hf, carryOut_congr_request f hr hret hmuster hq]
  · rw [hf, carryOut_refused (mayTake_other hq hother)]

/-- Settles O43: the requests' rows by `exec_carriesOut`, the drain head by head, the record of two
entries, the hold gap, and the resumption step by step. -/
theorem memoryLinkServesInOrder : Obligations.MemoryLinkServesInOrder := by
  unfold Obligations.MemoryLinkServesInOrder
  refine ⟨fun c r notify s hc hr => requestCommands_order hc hr, fun s su hsetup ha => ⟨fun hr => if_neg hr,
    fun hr => ?drains⟩, fun time b s su hr hsetup ha hqueue hgap hlost hroom hcont htwo => ?twoEntries,
    fun reserved time b s hrun hwaits hcount => ?gaps, fun host s hr => ?resumption⟩
  case drains =>
    intro size off filled
    refine ⟨fun hwaiting hwithdraw => ⟨drain_of_idle hwithdraw hwaiting, fun r rest hqueue => ?head⟩,
      fun hqueue hfilled hroom hs => ⟨fun slot hwaiting hwithdraw => ?closing,
        fun slot out notify hq htest hwaiting => ?withdraw⟩⟩
    case head =>
      intro n put fill left
      refine ⟨fun hfull => drain_of_blocked hqueue hsetup ha hr hwaiting hwithdraw hfull,
        fun hzero hone => ?_⟩
      have hfree : ¬ headBlocked su r s := fun h => h.elim hzero hone
      rw [drain_of_written hqueue hsetup ha hr hwaiting hwithdraw hfree, headLeft_eq hqueue]
      rfl
    case closing =>
      exact congrArg Host.Outcome.next
        (drain_serves_closing hsetup ha hr hqueue hfilled hroom hs hwaiting hwithdraw).symm
    case withdraw =>
      exact congrArg Host.Outcome.next
        (drain_serves_withdraw hsetup ha hr hqueue hfilled hroom hs hq htest hwaiting).symm
  case twoEntries =>
    intro r size off empty second
    refine ⟨fun hzero hone => ?twoWritten, fun hfull => ?twoHeld⟩
    case twoWritten =>
      have hfree : ¬ headBlocked su r (joined false time b s) := fun h =>
        h.elim (fun hfilled => hfilled hzero) fun hfilled => hfilled.2.2 hone
      have hhead : (joined false time b s).link.queue = [r] := by
        simp [joined, hqueue, r]
      have honly := handOver_linkOnly false time b s
      have hwritten := handOver_headLeft time hr hsetup ha hqueue hgap hlost hroom hfree
      have hentries : r.body.entries = 2 := htwo
      refine ⟨_, rfl, ?_, ?_, fun hbelow habove => ?_, ?_, honly.table, honly.doors, honly.clock⟩
      · rw [hwritten, headLeft_ram, recordPut, if_pos hentries]
        rfl
      · rw [hwritten, headLeft_link, hentries, hhead]
        simp [joined, hqueue, r, size]
      · rw [hwritten]
        exact headLeft_journal (rest := []) hhead hr hbelow (by rw [hentries]; exact habove)
      · rw [hwritten, headLeft_run]
        exact hr
    case twoHeld =>
      have hblocked : headBlocked su r (joined false time b s) := by
        by_cases hzero : empty 0
        · exact .inr ⟨htwo, hcont, fun hone => hfull ⟨hzero, hone⟩⟩
        · exact .inl hzero
      rw [handOver_headBlocked time hr hsetup ha hqueue hgap hlost hroom hblocked,
        raise_eq (by simp [joined, hr])]
      simp [joined, hqueue, r, Event.mask, Event.bit]
  case gaps =>
    intro beside left
    refine ⟨fun hroom => ?gap, fun hshort hroom => ?alone⟩
    case gap =>
      have hfree : reserved = true ∨ 1 ≤ freePlaces s := by
        cases reserved
        · exact .inr (le_trans (by decide : 1 ≤ 2) hroom)
        · exact .inl rfl
      have honly := handOver_linkOnly reserved time b s
      have hgap := placeGap_placed hcount hroom
      refine ⟨_, rfl, ?_, fun hqueue => flagSet_handOver_holding hrun hwaits hfree time b hqueue,
        fun hexact => ?_, handOver_joins_ram hrun hwaits hfree time b, honly.table, honly.doors, honly.clock⟩
      · rw [handOver_joins_link hrun hwaits hfree, hgap, placed_gap_link]
      · refine flagSet_handOver_joins hrun hwaits hfree time b ?_
        rw [hgap]
        exact placed_full (s := uncounted s) hrun _ _ _ _ hexact
    case alone =>
      have hfree : reserved = true ∨ 1 ≤ freePlaces s := hroom.imp_right fun h => h.ge
      have honly := handOver_linkOnly reserved time b s
      refine ⟨_, rfl, ?_, handOver_joins_ram hrun hwaits hfree time b, honly.table, honly.doors, honly.clock⟩
      rw [handOver_joins_link hrun hwaits hfree, placeGap_alone hshort, placeRecord_link]
  case resumption =>
    intro m back
    refine ⟨fun ha => ?resumes, fun rest ret su ha hret hsetup => ?stops⟩
    case resumes =>
      have hback : back.regs.run = .running := rfl
      have hret := (settleReturn_runFrame back).steady ha
      have hheld := (writeHeld_runFrame (settleReturn back)).steady hret.1
      have hsetup : (startMuster (drain (writeHeld (settleReturn back)))).link.setup = s.link.setup :=
        ((((settleReturn_runFrame back).trans (writeHeld_runFrame _)).trans (drain_runFrame _)).trans
          (startMuster_runFrame _)).setup
      refine ⟨writeHeld (settleReturn back), startMuster (drain (writeHeld (settleReturn back))),
        exec_outputWriteDone _, rfl, ?_⟩
      rw [exec_run, runOp_of_isolated (s := s.hostWrites host) hr]
      refine congrArg Host.Outcome.next ((resumeLink_steady (s := back) hback ha).trans ?_)
      rw [← hsetup]
      rfl
    case stops =>
      have hsettle := settleReturn_error (s := back) hret hsetup ha
      have hfail := linkFail_of_running (s := { back with linkAnswers := rest }) rfl
      have hstop : (settleReturn back).regs.run ≠ .running := by
        rw [hsettle, hfail]
        exact (nofun : RunState.isolated ≠ .running)
      rw [exec_run, runOp_of_isolated (s := s.hostWrites host) hr]
      refine congrArg Host.Outcome.next ((resumeLink_stopped (s := back) rfl hstop).trans ?_)
      have hpoll : some su.poll = s.link.setup.map (·.poll) := by
        rw [hsetup]
        rfl
      rw [hsettle, hfail, ← hr, hpoll]
      rfl

end Sys2Proof.Machine
end


section
/-! SUPPORT. The presentation check step by step: which verdict each step gives (R23, R53 to R60). -/

namespace Sys2Proof.Machine

/-! ### Steps 1 to 4 -/

/-- Line `l` is in service for a presentation, of a line frame or injected (R54). -/
structure InService (s : State) (injected : Bool) (l : LineNo) : Prop where
  gates : gatesRun s = true
  rehearsal : (s.mode.rehearsal && !injected) = false
  used : s.lines[l].desc.kind ≠ .unused

theorem ReaderKind.code_eq_four {k : ReaderKind} : k.code = 4 ↔ ∃ z, k = .musterPoint z := by
  cases k <;> simp [ReaderKind.code]

theorem ReaderKind.door_of_code_four {k : ReaderKind} (h : k.code = 4) : k.door = none := by
  obtain ⟨z, rfl⟩ := code_eq_four.1 h
  rfl

section Steps

variable {s : State} {injected : Bool} {l : LineNo} {p : Presentation}

theorem checkPresentation_outOfService
    (h : gatesRun s = false ∨ (s.mode.rehearsal && !injected) = true ∨ s.lines[l].desc.kind = .unused) :
    checkPresentation s injected l p = .outOfService := by
  refine if_pos ?_
  obtain h | h | h := h
  · simp [h]
  · simp [h]
  · exact Bool.or_eq_true_iff.2 (.inr (beq_iff_eq.2 h))

theorem checkPresentation_inService (hs : InService s injected l) :
    checkPresentation s injected l p =
      if (s.lines[l].desc.kind.door.isSome && fireActive s) = true then .egress
      else if (s.lines[l].desc.kind.code == 4 && !fireActive s) = true then .noFire
      else if heldOff s.lines[l].holdOff p = true then .silent
      else if (!hasRoom s) = true then .hold
      else identify s s.lines[l].desc p := by
  refine if_neg ?_
  have hused : (s.lines[l].desc.kind == .unused) = false := by simpa using hs.used
  rw [hs.gates, hs.rehearsal, hused]
  decide

theorem checkPresentation_egress (hs : InService s injected l)
    (hdoor : s.lines[l].desc.kind.door.isSome = true) (hfire : fireActive s = true) :
    checkPresentation s injected l p = .egress := by
  rw [checkPresentation_inService hs, hdoor, hfire]
  rfl

theorem checkPresentation_noFire (hs : InService s injected l) {z : ZoneNo}
    (hkind : s.lines[l].desc.kind = .musterPoint z) (hfire : fireActive s = false) :
    checkPresentation s injected l p = .noFire := by
  rw [checkPresentation_inService hs, hkind, hfire]
  rfl

/-- The fire state is the one in which the line's reader takes presentations (R55). -/
structure FireFits (s : State) (l : LineNo) : Prop where
  door : s.lines[l].desc.kind.door.isSome = true → fireActive s = false
  muster : ∀ z : ZoneNo, s.lines[l].desc.kind = .musterPoint z → fireActive s = true

theorem checkPresentation_fits (hs : InService s injected l) (hf : FireFits s l) :
    checkPresentation s injected l p =
      if heldOff s.lines[l].holdOff p = true then .silent
      else if (!hasRoom s) = true then .hold
      else identify s s.lines[l].desc p := by
  have hdoor : ¬(s.lines[l].desc.kind.door.isSome && fireActive s) = true := fun h => by
    simp only [Bool.and_eq_true] at h
    rw [hf.door h.1] at h
    cases h.2
  have hmuster : ¬(s.lines[l].desc.kind.code == 4 && !fireActive s) = true := fun h => by
    simp only [Bool.and_eq_true, beq_iff_eq, Bool.not_eq_true'] at h
    obtain ⟨z, hz⟩ := ReaderKind.code_eq_four.1 h.1
    rw [hf.muster z hz] at h
    cases h.2
  rw [checkPresentation_inService hs, if_neg hdoor, if_neg hmuster]

theorem checkPresentation_silent (hs : InService s injected l) (hf : FireFits s l)
    (hheld : heldOff s.lines[l].holdOff p = true) : checkPresentation s injected l p = .silent := by
  rw [checkPresentation_fits hs hf, if_pos hheld]

theorem checkPresentation_hold (hs : InService s injected l) (hf : FireFits s l)
    (hheld : heldOff s.lines[l].holdOff p = false) (hroom : hasRoom s = false) :
    checkPresentation s injected l p = .hold := by
  rw [checkPresentation_fits hs hf, hheld, hroom]
  rfl

theorem checkPresentation_identify (hs : InService s injected l) (hf : FireFits s l)
    (hheld : heldOff s.lines[l].holdOff p = false) (hroom : hasRoom s = true) :
    checkPresentation s injected l p = identify s s.lines[l].desc p := by
  rw [checkPresentation_fits hs hf, hheld, hroom]
  rfl

end Steps

/-! ### Steps 5 to 8 -/

theorem identify_badSite {s : State} {su : Setup} {desc : ReaderDesc} {p : Presentation}
    (hsu : s.link.setup = some su) (hsite : su.site ≠ p.site) :
    identify s desc p = .refused none .badSite := by
  unfold identify
  rw [hsu]
  exact if_pos hsite

theorem identify_unknown {s : State} {su : Setup} {desc : ReaderDesc} {p : Presentation}
    (hsu : s.link.setup = some su) (hsite : su.site = p.site)
    (hbadge : lookupBadge p.badge s.table.index = none) :
    identify s desc p = .refused none .unknownBadge := by
  unfold identify
  rw [hsu, hbadge]
  exact if_neg (not_not.2 hsite)

section Identify

variable {s : State} {su : Setup} {desc : ReaderDesc} {p : Presentation} {slot : Nat} {w : Worker}
  (hsu : s.link.setup = some su) (hsite : su.site = p.site)
  (hbadge : lookupBadge p.badge s.table.index = some slot) (hw : workerAt s slot = some w)
include hsu hsite hbadge hw

theorem identify_mismatch (hissue : w.issue ≠ p.issue) :
    identify s desc p = .refused (some slot) .issueMismatch := by
  unfold identify
  rw [hsu, hbadge]
  refine (if_neg (not_not.2 hsite)).trans ?_
  dsimp only
  rw [hw]
  exact if_pos hissue

theorem identify_suspended (hissue : w.issue = p.issue) (hsuspended : w.suspended = true) :
    identify s desc p = .refused (some slot) .suspended := by
  unfold identify
  rw [hsu, hbadge]
  refine (if_neg (not_not.2 hsite)).trans ?_
  dsimp only
  rw [hw]
  dsimp only
  rw [if_neg (fun h : w.issue ≠ p.issue => h hissue), if_pos hsuspended]

theorem identify_rollCall (hissue : w.issue = p.issue) (hsuspended : w.suspended = false) {z : ZoneNo}
    (hkind : desc.kind = .musterPoint z) : identify s desc p = .rollCall slot z := by
  unfold identify
  rw [hsu, hbadge]
  refine (if_neg (not_not.2 hsite)).trans ?_
  dsimp only
  rw [hw]
  dsimp only
  rw [if_neg (fun h : w.issue ≠ p.issue => h hissue), if_neg (by rw [hsuspended]; decide), hkind]

theorem identify_gates (hissue : w.issue = p.issue) (hsuspended : w.suspended = false)
    (hkind : desc.kind.code ≠ 4) : identify s desc p = gateChecks s desc slot w p.time.sec := by
  unfold identify
  rw [hsu, hbadge]
  refine (if_neg (not_not.2 hsite)).trans ?_
  dsimp only
  rw [hw]
  dsimp only
  rw [if_neg (fun h : w.issue ≠ p.issue => h hissue), if_neg (by rw [hsuspended]; decide)]
  split
  · next h =>
    rw [h] at hkind
    exact absurd rfl hkind
  all_goals rfl

end Identify

/-! ### Steps 9 to 13 -/

section Gates

variable {s : State} {desc : ReaderDesc} {slot t : Nat} {w : Worker}

theorem gateChecks_busy (h : grantNames s slot = true) : gateChecks s desc slot w t = .busy := if_pos h

section Clock

variable (hgrant : grantNames s slot = false) (hdoor : desc.kind.door = none)
include hgrant hdoor

theorem gateChecks_clock_refused {r : Reason} (h : clockCheck s desc.kind w t = .error r) :
    gateChecks s desc slot w t = .refused (some slot) r := by
  unfold gateChecks
  rw [hgrant, hdoor]
  dsimp only
  rw [h]
  rfl

theorem gateChecks_clock_accepted {kind : PunchKind} (h : clockCheck s desc.kind w t = .ok kind) :
    gateChecks s desc slot w t = .accepted slot kind false := by
  unfold gateChecks
  rw [hgrant, hdoor]
  dsimp only
  rw [h]
  rfl

end Clock

section Door

variable {d : DoorNo} {inward : Bool} (hgrant : grantNames s slot = false)
  (hdoor : desc.kind.door = some (d, inward))
include hgrant hdoor

theorem gateChecks_guarded {r : Reason} (h : doorGuard s.doors[d] = some (some r)) :
    gateChecks s desc slot w t = .refused (some slot) r := by
  unfold gateChecks
  rw [hgrant, hdoor]
  dsimp only
  rw [h]
  rfl

theorem gateChecks_unready (h : doorGuard s.doors[d] = some none) :
    gateChecks s desc slot w t = .busy := by
  unfold gateChecks
  rw [hgrant, hdoor]
  dsimp only
  rw [h]
  rfl

variable (hready : doorGuard s.doors[d] = none)
include hready

theorem gateChecks_door_refused {r : Reason} (h : doorChecks s d inward desc.level w = .error r) :
    gateChecks s desc slot w t = .refused (some slot) r := by
  unfold gateChecks
  rw [hgrant, hdoor]
  dsimp only
  rw [hready, h]
  rfl

theorem gateChecks_door_clock_refused {soft : Bool} {r : Reason}
    (h : doorChecks s d inward desc.level w = .ok soft) (hclock : clockCheck s desc.kind w t = .error r) :
    gateChecks s desc slot w t = .refused (some slot) r := by
  unfold gateChecks
  rw [hgrant, hdoor]
  dsimp only
  rw [hready, h, hclock]
  rfl

theorem gateChecks_door_accepted {soft : Bool} {kind : PunchKind}
    (h : doorChecks s d inward desc.level w = .ok soft) (hclock : clockCheck s desc.kind w t = .ok kind) :
    gateChecks s desc slot w t = .accepted slot kind soft := by
  unfold gateChecks
  rw [hgrant, hdoor]
  dsimp only
  rw [hready, h, hclock]
  rfl

end Door

end Gates

theorem doorGuard_locked {e : Door} (h : e.entry.mode = .locked) : doorGuard e = some (some .doorLocked) :=
  if_pos h

theorem doorGuard_fault {e : Door} (h : e.entry.mode ≠ .locked) (hs : e.state = .fault) :
    doorGuard e = some (some .doorFault) := (if_neg h).trans (if_pos hs)

theorem doorGuard_unready {e : Door} (h : e.entry.mode ≠ .locked) (hs : e.state ≠ .fault)
    (hready : ¬((e.state = .secure ∧ e.grant = none) ∨ e.state = .free)) : doorGuard e = some none :=
  ((if_neg h).trans (if_neg hs)).trans (if_neg hready)

theorem doorGuard_ready {e : Door} (h : e.entry.mode ≠ .locked)
    (hready : (e.state = .secure ∧ e.grant = none) ∨ e.state = .free) : doorGuard e = none := by
  have hs : e.state ≠ .fault := by
    obtain ⟨hs, -⟩ | hs := hready <;> rw [hs] <;> decide
  exact ((if_neg h).trans (if_neg hs)).trans (if_pos hready)

/-! ### Steps 10 to 12 -/

/-- The target zone, where there is one: outside has no entry (R66). -/
theorem zoneAt_exists_iff {s : State} {z : ZoneNo} {f : Zone → Prop} :
    (∃ j : Fin 15, j.val + 1 = z.val ∧ f s.zones[j]) ↔ ∃ e, zoneAt s z = some e ∧ f e := by
  constructor
  · rintro ⟨j, hj, hf⟩
    exact ⟨_, zoneAt_eq_some_iff.2 ⟨j, hj, rfl⟩, hf⟩
  · rintro ⟨e, he, hf⟩
    obtain ⟨j, hj, rfl⟩ := zoneAt_eq_some_iff.1 he
    exact ⟨j, hj, hf⟩

section ZoneRefusal

variable {z : Zone} {e : DoorEntry} {level : Nat} {w : Worker}

theorem zoneRefusal_absent (h : z.present = false) : zoneRefusal z e level w = some .zoneAbsent :=
  if_pos (by rw [h]; rfl)

variable (hpresent : z.present ≠ false)
include hpresent

theorem zoneRefusal_present : zoneRefusal z e level w =
    if z.type = .closed then some .zoneClosed
    else if w.profile = 0 then some .noProfile
    else if e.profiles.getLsbD w.profile = false then some .profile
    else if z.ceiling < max w.clearance level then some .clearance
    else none := if_neg (by simpa using hpresent)

end ZoneRefusal

section DoorChecks

variable {s : State} {d : DoorNo} {inward : Bool} {level : Nat} {w : Worker}

theorem doorChecks_refused {r : Reason}
    (h : ∃ z, zoneAt s (targetZone s.doors[d].entry inward) = some z ∧
      zoneRefusal z s.doors[d].entry level w = some r) : doorChecks s d inward level w = .error r := by
  obtain ⟨z, hz, hr⟩ := h
  have hbind : ((zoneAt s (targetZone s.doors[d].entry inward)).bind
      fun z => zoneRefusal z s.doors[d].entry level w) = some r := by
    rw [hz]
    exact hr
  unfold doorChecks
  dsimp only
  rw [hbind]

variable (hpass : ∀ z, zoneAt s (targetZone s.doors[d].entry inward) = some z →
  zoneRefusal z s.doors[d].entry level w = none)
include hpass

theorem doorChecks_passed : doorChecks s d inward level w =
    if (decide (w.location ≠ sourceZone s.doors[d].entry inward) && s.doors[d].entry.apb == .hard) = true then
      .error .wrongZone
    else if (zoneAt s (targetZone s.doors[d].entry inward)).any zoneFull = true then .error .zoneFull
    else .ok (decide (w.location ≠ sourceZone s.doors[d].entry inward) && s.doors[d].entry.apb == .soft) := by
  have hbind : ((zoneAt s (targetZone s.doors[d].entry inward)).bind
      fun z => zoneRefusal z s.doors[d].entry level w) = none := by
    cases hz : zoneAt s (targetZone s.doors[d].entry inward) with
    | none => rfl
    | some z => exact hpass z hz
  unfold doorChecks
  dsimp only
  rw [hbind]

theorem doorChecks_wrongZone (hwrong : w.location ≠ sourceZone s.doors[d].entry inward)
    (hhard : s.doors[d].entry.apb = .hard) : doorChecks s d inward level w = .error .wrongZone :=
  (doorChecks_passed hpass).trans (if_pos (by simpa using ⟨hwrong, hhard⟩))

variable (hplace : ¬(w.location ≠ sourceZone s.doors[d].entry inward ∧ s.doors[d].entry.apb = .hard))
include hplace

theorem doorChecks_placed : doorChecks s d inward level w =
    if (zoneAt s (targetZone s.doors[d].entry inward)).any zoneFull = true then .error .zoneFull
    else .ok (decide (w.location ≠ sourceZone s.doors[d].entry inward) && s.doors[d].entry.apb == .soft) :=
  (doorChecks_passed hpass).trans (if_neg fun h => hplace (by simpa using h))

theorem doorChecks_full {z : Zone} (hz : zoneAt s (targetZone s.doors[d].entry inward) = some z)
    (hfull : z.capacity ≠ 0 ∧ z.capacity ≤ z.occupancy + z.reserved) :
    doorChecks s d inward level w = .error .zoneFull :=
  (doorChecks_placed hpass hplace).trans (if_pos (by rw [hz]; simp [zoneFull, hfull.1, hfull.2]))

theorem doorChecks_ok (hfree : ∀ z, zoneAt s (targetZone s.doors[d].entry inward) = some z →
      ¬(z.capacity ≠ 0 ∧ z.capacity ≤ z.occupancy + z.reserved)) :
    doorChecks s d inward level w
      = .ok (decide (w.location ≠ sourceZone s.doors[d].entry inward ∧ s.doors[d].entry.apb = .soft)) := by
  refine (doorChecks_placed hpass hplace).trans ((if_neg fun hany => ?_).trans ?_)
  · obtain ⟨z, hz, hfull⟩ := (Option.any_eq_true ..).1 hany
    exact hfree z hz (by simpa [zoneFull] using hfull)
  · rw [Bool.decide_and]
    rfl

end DoorChecks

end Sys2Proof.Machine
end


section
/-! SUPPORT. What each verdict of the presentation check does, and the check in its order (R60, R61, R75, R82,
R160). -/

namespace Sys2Proof.Machine

/-! ### Step 13 -/

/-- The worker is in no shift at `t`, and may not be (R60). -/
def Unscheduled (s : State) (w : Worker) (t : Nat) : Prop :=
  resolveShift s.cal w.assignment (payRule s.pay w.rule).admitMin t = none ∧ w.unschedOk = false

theorem isClocking_of_clocks {e : DoorEntry} (h : e.fromZone = 0 ∧ e.clocking = true) :
    e.isClocking = true := by
  unfold DoorEntry.isClocking
  simpa using h

section Clock

variable {s : State} {w : Worker} {t : Nat}

theorem clockInAttempt_refused (h : Unscheduled s w t) :
    clockInAttempt s w t = .error .notScheduled := if_pos (by rw [h.1, h.2]; rfl)

theorem clockInAttempt_ok (h : ¬ Unscheduled s w t) : clockInAttempt s w t = .ok .punchIn :=
  if_neg fun hc => h (by simpa [Unscheduled] using hc)

theorem clockCheck_on {role : Role} (hon : w.interval.isSome = true) (hrole : role ≠ .in_) :
    clockCheck s (.clockOnly role) w t = .ok .punchOut := by
  unfold clockCheck
  rw [hon]
  cases role with
  | in_ => exact absurd rfl hrole
  | out => rfl
  | toggle => rfl

theorem clockCheck_already (hon : w.interval.isSome = true) :
    clockCheck s (.clockOnly .in_) w t = .error .alreadyOn := by
  unfold clockCheck
  rw [hon]
  rfl

theorem clockCheck_notOn (hoff : w.interval = none) :
    clockCheck s (.clockOnly .out) w t = .error .notOn := by
  unfold clockCheck
  rw [hoff]
  rfl

theorem clockCheck_off {role : Role} (hoff : w.interval = none) (hrole : role ≠ .out) :
    clockCheck s (.clockOnly role) w t = clockInAttempt s w t := by
  unfold clockCheck
  rw [hoff]
  cases role with
  | in_ => rfl
  | out => exact absurd rfl hrole
  | toggle => rfl

theorem ReaderKind.door_eq_some {k : ReaderKind} {d : DoorNo} {inward : Bool} (h : k.door = some (d, inward)) :
    (k = .doorEntry d ∧ inward = true) ∨ (k = .doorExit d ∧ inward = false) := by
  cases k <;> simp_all [ReaderKind.door]

variable {k : ReaderKind} {d : DoorNo} {inward : Bool} (hdoor : k.door = some (d, inward))
include hdoor

theorem clockCheck_passage (hclocks : ¬(s.doors[d].entry.fromZone = 0 ∧ s.doors[d].entry.clocking = true)) :
    clockCheck s k w t = .ok .passage := by
  have hnot : s.doors[d].entry.isClocking = false := by
    unfold DoorEntry.isClocking
    simpa using hclocks
  obtain ⟨rfl, -⟩ | ⟨rfl, -⟩ := ReaderKind.door_eq_some hdoor
  all_goals
    unfold clockCheck
    dsimp only
    rw [hnot]
    rfl

variable (hclocks : s.doors[d].entry.fromZone = 0 ∧ s.doors[d].entry.clocking = true)
include hclocks

theorem clockCheck_clocks (hnot : ¬(inward = true ∧ w.interval = none)) :
    clockCheck s k w t = .ok (if w.interval = none then (if inward = true then .punchIn else .strayOut)
      else if inward = true then .reentry else .punchOut) := by
  have hclock := isClocking_of_clocks hclocks
  obtain ⟨rfl, rfl⟩ | ⟨rfl, rfl⟩ := ReaderKind.door_eq_some hdoor
  · cases hi : w.interval with
    | none => exact absurd ⟨rfl, hi⟩ hnot
    | some i =>
      unfold clockCheck
      dsimp only
      rw [hclock, hi]
      rfl
  · unfold clockCheck
    dsimp only
    rw [hclock]
    cases w.interval <;> rfl

theorem clockCheck_attempt (hin : inward = true) (hoff : w.interval = none) :
    clockCheck s k w t = clockInAttempt s w t := by
  have hclock := isClocking_of_clocks hclocks
  obtain ⟨rfl, -⟩ | ⟨-, rfl⟩ := ReaderKind.door_eq_some hdoor
  · unfold clockCheck
    dsimp only
    rw [hclock, hoff]
    rfl
  · cases hin

end Clock

/-- Step 13 at a door reader that is not shut to the worker (R60). -/
theorem clockCheck_door {s : State} {w : Worker} {t : Nat} {k : ReaderKind} {d : DoorNo} {inward : Bool}
    (hdoor : k.door = some (d, inward))
    (hopen : ¬((s.doors[d].entry.fromZone = 0 ∧ s.doors[d].entry.clocking = true) ∧ inward = true ∧
      w.interval = none ∧ Unscheduled s w t)) :
    clockCheck s k w t = .ok
      (if s.doors[d].entry.fromZone = 0 ∧ s.doors[d].entry.clocking = true then
        (if w.interval = none then (if inward = true then .punchIn else .strayOut)
        else if inward = true then .reentry else .punchOut)
      else .passage) := by
  by_cases hclocks : s.doors[d].entry.fromZone = 0 ∧ s.doors[d].entry.clocking = true
  · rw [if_pos hclocks]
    by_cases hattempt : inward = true ∧ w.interval = none
    · obtain ⟨hin, hoff⟩ := hattempt
      rw [clockCheck_attempt hdoor hclocks hin hoff, hin, hoff,
        clockInAttempt_ok fun h => hopen ⟨hclocks, hin, hoff, h⟩]
      rfl
    · exact clockCheck_clocks hdoor hclocks hattempt
  · rw [if_neg hclocks]
    exact clockCheck_passage hdoor hclocks

/-! ### Outcomes -/

/-- A punch applied at once, in the words of the statements (R82). -/
theorem punchApplies_applyAtOnce {s : State} {su : Setup} {slot : Nat} {w : Worker}
    (hw : workerAt s slot = some w) (hsu : s.link.setup = some su) {door : Option DoorNo} {l : LineNo}
    {inward soft : Bool} {target : ZoneNo} {t : Stamp} {kind : PunchKind} {ends : State → Prop}
    (hends : ends (applyAtOnce slot door l inward target t kind soft s)) :
    PunchApplies su kind ⟨slot, w.badge, w.issue, door, l, inward, w.location, target, t, soft⟩
      { w with location := target } (movedTo slot w target s)
      fun body u => ends (handOver false t body u) := by
  have hinfo : passageInfo s slot door l inward target t soft =
      ⟨slot, w.badge, w.issue, door, l, inward, w.location, target, t, soft⟩ := by
    rw [passageInfo, hw]
  have happly : applyAtOnce slot door l inward target t kind soft s = handOver false t
      (applyPunch kind (passageInfo s slot door l inward target t soft) (moveWorker slot target s)).2
      (applyPunch kind (passageInfo s slot door l inward target t soft) (moveWorker slot target s)).1 := rfl
  rw [happly, hinfo, moveWorker_eq _ hw] at hends
  refine punchApplies_applyPunch (workerAt_movedTo hw target) ?_ hends
  rw [(movedTo_regs_link slot w target s).2, hsu]

theorem movedTo_self (slot : Nat) (w : Worker) (s : State) : movedTo slot w w.location s = s := if_pos rfl

/-- A grant created at a door, in the words of the statements (R75, R88, R170). -/
theorem createGrant_eq {s : State} (d : DoorNo) (g : Grant) (hroom : 1 ≤ freePlaces s) :
    let kept := modZone g.target (fun z => { z with reserved := z.reserved + 1 }) (countPlace s)
    createGrant d g s = modDoor d (fun e => { entered s .released .released e with
      release := some (e.entry.release * 16), grant := some g })
      (if freePlaces s = 1 then raise .holdFull kept else kept) := by
  intro kept
  have hkept : countPlace (addReservation g.target s) = kept := by
    unfold kept addReservation countPlace modZone
    split <;> rfl
  have hcap : queueCap (addReservation g.target s) = queueCap s := by
    unfold queueCap addReservation
    rw [modZone_table]
  have hfree : freePlaces (addReservation g.target s) = freePlaces s := by
    unfold freePlaces
    rw [hcap]
    unfold addReservation
    rw [modZone_link]
  have hless : freePlaces (countPlace (addReservation g.target s)) = freePlaces s - 1 := by
    rw [← hfree]
    exact Nat.sub_add_eq _ _ 1
  have hplace : reservePlace (addReservation g.target s) =
      if freePlaces s = 1 then raise .holdFull kept else kept := by
    rw [reservePlace_eq, hless, hfree, hkept]
    exact if_congr (by omega) rfl rfl
  have hdoors : (if freePlaces s = 1 then raise .holdFull kept else kept).doors = s.doors := by
    rw [← hplace, reservePlace_doors]
    exact modZone_doors _ _ _
  unfold createGrant
  rw [hplace]
  refine modDoor_congr ?_
  rw [hdoors]
  simp only [releaseFor, enter_eq_entered]
  rfl

end Sys2Proof.Machine
end


section
/-! SUPPORT. The presentation check in its order (R53 to R61, R75, R82, R160). -/

namespace Sys2Proof.Machine

/-- The answer and the state of a presentation's verdict satisfy `ends`. -/
def Told (s : State) (l : LineNo) (p : Presentation) (ends : Option Answer → State → Prop) (v : Verdict) :
    Prop := ends (answerOf s l v) (outcome l p v s)

section Outcomes

variable {s : State} {l : LineNo} {p : Presentation} {ends : Option Answer → State → Prop} {slot : Nat}
  {w : Worker} {su : Setup} {kind : PunchKind} {soft : Bool}

theorem Told.rollCall {z : ZoneNo} (h : Told s l p ends (.rollCall slot z)) (hw : workerAt s slot = some w) :
    ends (some ⟨.green, 20⟩) (handOver false p.time
      (.mustered slot w.badge l z w.location w.interval.isSome w.muster)
      (setWorker slot { w with muster := true } s)) := by
  have hcall : Machine.rollCall slot l z p.time s = handOver false p.time
      (.mustered slot w.badge l z w.location w.interval.isSome w.muster)
      (setWorker slot { w with muster := true } s) := by
    unfold Machine.rollCall
    rw [hw]
  rw [← hcall]
  exact h

theorem Told.clock {role : Role} (h : Told s l p ends (.accepted slot kind false))
    (hkind : s.lines[l].desc.kind = .clockOnly role) (hw : workerAt s slot = some w)
    (hsu : s.link.setup = some su) :
    PunchApplies su kind ⟨slot, w.badge, w.issue, none, l, false, w.location, w.location, p.time, false⟩ w s
      fun body t => ends (some ⟨.green, 20⟩) (handOver false p.time body t) := by
  have hgreen : greenDuration s l = 20 := by
    unfold greenDuration
    rw [hkind]
    rfl
  have hout : outcome l p (.accepted slot kind false) s =
      applyAtOnce slot none l false w.location p.time kind false s := by
    unfold outcome
    dsimp only
    rw [hkind, hw]
    rfl
  have hends : ends (some ⟨.green, greenDuration s l⟩) (outcome l p (.accepted slot kind false) s) := h
  rw [hgreen, hout] at hends
  have happlies := punchApplies_applyAtOnce (ends := ends (some ⟨.green, 20⟩)) hw hsu hends
  rwa [movedTo_self] at happlies

section Door

variable {d : DoorNo} {inward : Bool} (h : Told s l p ends (.accepted slot kind soft))
  (hdoor : s.lines[l].desc.kind.door = some (d, inward))
include h hdoor

theorem Told.free (hfree : s.doors[d].state = .free) (hw : workerAt s slot = some w)
    (hsu : s.link.setup = some su) :
    PunchApplies su kind ⟨slot, w.badge, w.issue, some d, l, inward, w.location,
        targetZone s.doors[d].entry inward, p.time, soft⟩
      { w with location := targetZone s.doors[d].entry inward }
      (movedTo slot w (targetZone s.doors[d].entry inward) s)
      fun body t => ends (some ⟨.green, 20⟩) (handOver false p.time body t) := by
  have hgreen : greenDuration s l = 20 := by
    unfold greenDuration
    rw [hdoor]
    exact if_pos hfree
  have hout : outcome l p (.accepted slot kind soft) s =
      applyAtOnce slot (some d) l inward (targetZone s.doors[d].entry inward) p.time kind soft s := by
    unfold outcome
    dsimp only
    rw [hdoor]
    exact if_pos hfree
  have hends : ends (some ⟨.green, greenDuration s l⟩) (outcome l p (.accepted slot kind soft) s) := h
  rw [hgreen, hout] at hends
  exact punchApplies_applyAtOnce (ends := ends (some ⟨.green, 20⟩)) hw hsu hends

theorem Told.card (hcard : s.doors[d].state ≠ .free) :
    ends (some ⟨.green, min 255 (s.doors[d].entry.release * 10)⟩)
      (createGrant d ⟨slot, l, inward, sourceZone s.doors[d].entry inward,
        targetZone s.doors[d].entry inward, p.time, kind, soft⟩ s) := by
  have hgreen : greenDuration s l = min 255 (s.doors[d].entry.release * 10) := by
    unfold greenDuration
    rw [hdoor]
    exact if_neg hcard
  have hout : outcome l p (.accepted slot kind soft) s = createGrant d ⟨slot, l, inward,
      sourceZone s.doors[d].entry inward, targetZone s.doors[d].entry inward, p.time, kind, soft⟩ s := by
    unfold outcome
    dsimp only
    rw [hdoor]
    exact if_neg hcard
  have hends : ends (some ⟨.green, greenDuration s l⟩) (outcome l p (.accepted slot kind soft) s) := h
  rwa [hgreen, hout] at hends

end Door

end Outcomes

/-- The presentation check in service, in the words of the statements. -/
theorem checksInOrder {s : State} {injected : Bool} {l : LineNo} {p : Presentation}
    {ends : Option Answer → State → Prop} (hs : InService s injected l)
    (hends : Told s l p ends (checkPresentation s injected l p)) : ChecksInOrder l p s s ends := by
  have told : ∀ {v : Verdict}, checkPresentation s injected l p = v → Told s l p ends v := fun h => h ▸ hends
  refine ⟨fun hdoor hfire => told (checkPresentation_egress hs (by simpa using hdoor) hfire),
    fun z hkind hfire => told (checkPresentation_noFire hs hkind hfire), fun hdoor hmuster => ?_⟩
  have hfits : FireFits s l := ⟨fun h => hdoor (by simpa using h), hmuster⟩
  refine ⟨fun hheld => told (checkPresentation_silent hs hfits hheld),
    fun hheld hroom => told (checkPresentation_hold hs hfits hheld hroom), fun su hheld hroom hsu => ?_⟩
  have hidentify := checkPresentation_identify (p := p) hs hfits hheld hroom
  refine ⟨fun hsite => told (hidentify.trans (identify_badSite hsu hsite)),
    fun hsite hbadge => told (hidentify.trans (identify_unknown hsu hsite hbadge)),
    fun slot w hsite hbadge hw => ⟨
      fun hissue => told (hidentify.trans (identify_mismatch hsu hsite hbadge hw hissue)),
      fun hissue hsusp => told (hidentify.trans (identify_suspended hsu hsite hbadge hw hissue hsusp)),
      fun hissue hsusp => ?_⟩⟩
  have hgates (h : s.lines[l].desc.kind.code ≠ 4) {v : Verdict}
      (hv : gateChecks s s.lines[l].desc slot w p.time.sec = v) : Told s l p ends v :=
    told ((hidentify.trans (identify_gates hsu hsite hbadge hw hissue hsusp h)).trans hv)
  intro run unscheduled green
  refine ⟨fun z hkind => ?muster, fun hcode hgrant => hgates hcode (gateChecks_busy hgrant),
    fun role hkind hgrant => ?clock, fun d inward hdoor hgrant => ?door⟩
  case muster =>
    exact (told (hidentify.trans (identify_rollCall hsu hsite hbadge hw hissue hsusp hkind))).rollCall hw
  case clock =>
    intro kind
    have hcode : s.lines[l].desc.kind.code ≠ 4 := by
      rw [hkind]
      exact (by decide : (3 : Nat) ≠ 4)
    have hnone : s.lines[l].desc.kind.door = none := by
      rw [hkind]
      rfl
    have hrefused {r : Reason} (h : clockCheck s (.clockOnly role) w p.time.sec = .error r) :
        Told s l p ends (.refused (some slot) r) :=
      hgates hcode (gateChecks_clock_refused hgrant hnone (by rw [hkind]; exact h))
    have haccepted {k : PunchKind} (h : clockCheck s (.clockOnly role) w p.time.sec = .ok k) :
        Told s l p ends (.accepted slot k false) :=
      hgates hcode (gateChecks_clock_accepted hgrant hnone (by rw [hkind]; exact h))
    refine ⟨?already, fun hrole hoff => ?notOn, fun hrole hoff hun => ?notScheduled, fun hpunch => ?punch⟩
    case already =>
      rintro rfl hon
      exact hrefused (clockCheck_already hon)
    case notOn =>
      subst hrole
      exact hrefused (clockCheck_notOn hoff)
    case notScheduled =>
      exact hrefused ((clockCheck_off hoff hrole).trans (clockInAttempt_refused hun))
    case punch =>
      obtain ⟨hrole, hoff, hsched⟩ | ⟨hrole, hon⟩ := hpunch
      · have hkindIs : kind = .punchIn := if_pos hoff
        rw [hkindIs]
        exact (haccepted ((clockCheck_off hoff hrole).trans (clockInAttempt_ok hsched))).clock hkind hw hsu
      · have hkindIs : kind = .punchOut := if_neg (Option.isSome_iff_ne_none.1 hon)
        rw [hkindIs]
        exact (haccepted (clockCheck_on hon hrole)).clock hkind hw hsu
  case door =>
    intro e source target clocks ready
    have hcode : s.lines[l].desc.kind.code ≠ 4 := fun h => by
      rw [ReaderKind.door_of_code_four h] at hdoor
      cases hdoor
    have hguard {r : Reason} (h : doorGuard e = some (some r)) : Told s l p ends (.refused (some slot) r) :=
      hgates hcode (gateChecks_guarded hgrant hdoor h)
    refine ⟨fun hmode => hguard (doorGuard_locked hmode),
      fun hmode hfault => hguard (doorGuard_fault hmode hfault),
      fun hmode hfault hready => hgates hcode
        (gateChecks_unready hgrant hdoor (doorGuard_unready hmode hfault hready)), fun hmode hready => ?_⟩
    have hpass : doorGuard e = none := doorGuard_ready hmode hready
    intro zone absent closed noProfile profile clearance wrong full shut soft
    have hzone (f : Zone → Prop) : zone f ↔ ∃ z, zoneAt s target = some z ∧ f z := zoneAt_exists_iff
    have hnot {f : Zone → Prop} (h : ¬ zone f) {z : Zone} (hz : zoneAt s target = some z) : ¬ f z :=
      fun hf => h ((hzone f).2 ⟨z, hz, hf⟩)
    have hpresent (h : ¬ absent) {z : Zone} (hz : zoneAt s target = some z) : z.present ≠ false :=
      hnot (f := fun z => z.present = false) h hz
    have hentered (h : ¬ closed) {z : Zone} (hz : zoneAt s target = some z) : ¬ z.type = .closed :=
      hnot (f := fun z => z.type = .closed) h hz
    have hprofiled (h : ¬ noProfile) {z : Zone} (hz : zoneAt s target = some z) : ¬ w.profile = 0 :=
      hnot (f := fun _ => w.profile = 0) h hz
    have hallowed (h : ¬ profile) {z : Zone} (hz : zoneAt s target = some z) :
        ¬ e.entry.profiles.getLsbD w.profile = false :=
      hnot (f := fun _ => e.entry.profiles.getLsbD w.profile = false) h hz
    have hroomy (h : ¬ full) (z : Zone) (hz : zoneAt s target = some z) :
        ¬(z.capacity ≠ 0 ∧ z.capacity ≤ z.occupancy + z.reserved) :=
      hnot (f := fun z => z.capacity ≠ 0 ∧ z.capacity ≤ z.occupancy + z.reserved) h hz
    have hrefused {r : Reason} (h : doorChecks s d inward s.lines[l].desc.level w = .error r) :
        Told s l p ends (.refused (some slot) r) :=
      hgates hcode (gateChecks_door_refused hgrant hdoor hpass h)
    have hzoned {f : Zone → Prop} {r : Reason} (h : zone f) (hr : ∀ z, zoneAt s target = some z → f z →
        zoneRefusal z e.entry s.lines[l].desc.level w = some r) : Told s l p ends (.refused (some slot) r) := by
      obtain ⟨z, hz, hf⟩ := (hzone f).1 h
      exact hrefused (doorChecks_refused ⟨z, hz, hr z hz hf⟩)
    refine ⟨fun h => hzoned h fun z hz hf => zoneRefusal_absent hf,
      fun ha h => hzoned h fun z hz hf => (zoneRefusal_present (hpresent ha hz)).trans (if_pos hf),
      fun ha hc h => hzoned h fun z hz hf => ((zoneRefusal_present (hpresent ha hz)).trans
        (if_neg (hentered hc hz))).trans (if_pos hf),
      fun ha hc hn h => hzoned h fun z hz hf => (((zoneRefusal_present (hpresent ha hz)).trans
        (if_neg (hentered hc hz))).trans (if_neg (hprofiled hn hz))).trans (if_pos hf),
      fun ha hc hn hp h => hzoned (f := fun z => z.ceiling < max w.clearance s.lines[l].desc.level) h
        fun z hz hf => ((((zoneRefusal_present (hpresent ha hz)).trans
        (if_neg (hentered hc hz))).trans (if_neg (hprofiled hn hz))).trans (if_neg (hallowed hp hz))).trans (if_pos hf),
      fun ha hc hn hp hl => ?_⟩
    have hclear (z : Zone) (hz : zoneAt s target = some z) :
        zoneRefusal z e.entry s.lines[l].desc.level w = none := ((((zoneRefusal_present (hpresent ha hz)).trans
      (if_neg (hentered hc hz))).trans (if_neg (hprofiled hn hz))).trans (if_neg (hallowed hp hz))).trans
        (if_neg (hnot (f := fun z => z.ceiling < max w.clearance s.lines[l].desc.level) hl hz))
    refine ⟨fun hwrong hhard => hrefused (doorChecks_wrongZone hclear hwrong hhard), fun hplace hfull => ?full,
      fun hplace hfree hshut => ?shut, fun hplace hfree hopen => ?pass⟩
    case full =>
      obtain ⟨z, hz, hf⟩ := (hzone fun z => z.capacity ≠ 0 ∧ z.capacity ≤ z.occupancy + z.reserved).1 hfull
      exact hrefused (doorChecks_full hclear hplace hz hf)
    case shut =>
      obtain ⟨hclocks, hin, hoff, hun⟩ := hshut
      exact hgates hcode (gateChecks_door_clock_refused hgrant hdoor hpass
        (doorChecks_ok hclear hplace (hroomy hfree))
        ((clockCheck_attempt hdoor hclocks hin hoff).trans (clockInAttempt_refused hun)))
    case pass =>
      intro kind kept
      have haccepted : Told s l p ends (.accepted slot kind soft) :=
        hgates hcode (gateChecks_door_accepted hgrant hdoor hpass
          (doorChecks_ok hclear hplace (hroomy hfree)) (clockCheck_door hdoor hopen))
      refine ⟨fun hstate => haccepted.free hdoor hstate hw hsu, fun hstate => ?_⟩
      have hcard := haccepted.card hdoor hstate
      rw [createGrant_eq d _ (freePlaces_of_hasRoom hroom)] at hcard
      exact hcard

end Sys2Proof.Machine
end


section
/-! CERTIFICATE. Presentations on a line, and the shift that holds (R23, R46, R53 to R61). -/

namespace Sys2Proof.Machine

/-! ### A presentation taken from its line -/

/-- The check reads of the lines only its own line's descriptor and hold-off memory. -/
theorem checksInOrder_congr {s : State} {l : LineNo} {p : Presentation} {f : Line → Line}
    {ends : Option Answer → State → Prop} (hdesc : (f s.lines[l]).desc = s.lines[l].desc)
    (hheld : (f s.lines[l]).holdOff = s.lines[l].holdOff)
    (h : ChecksInOrder l p (modLine l f s) (modLine l f s) ends) : ChecksInOrder l p s (modLine l f s) ends := by
  unfold ChecksInOrder at h ⊢
  rw [modLine_same, hdesc, hheld] at h
  exact h

/-- The line's next presentation taken, in the words of the statements. -/
theorem exec_presentation {l : LineNo} {p : Presentation} {s : State} (hnext : nextOnLine l p s = true) :
    let taken := modLine l (fun e => { e with waiting := e.waiting.tail }) s
    Told taken l p (fun a t => exec (.presentation l p) s = .next (a.elim t fun x =>
      modLine l (fun e => { e with holdOff := some (p.badge, p.time), answer := some x }) t))
      (checkPresentation taken false l p) := by
  intro taken
  have htake : exec (.presentation l p) s = .next (takePresentation false l p taken).2 :=
    congrArg Host.Outcome.next (if_pos hnext)
  unfold Told
  rw [htake]
  unfold takePresentation
  dsimp only
  cases answerOf taken l (checkPresentation taken false l p) <;> rfl

/-- A presentation of a line in service. -/
theorem presentation_checks {l : LineNo} {p : Presentation} {s : State} (hnext : nextOnLine l p s = true)
    (hgates : gatesRun s = true) (hrehearsal : s.mode.rehearsal = false)
    (hused : s.lines[l].desc.kind ≠ .unused) :
    ChecksInOrder l p s (modLine l (fun e => { e with waiting := e.waiting.tail }) s) fun a t =>
      exec (.presentation l p) s = .next (a.elim t fun x =>
        modLine l (fun e => { e with holdOff := some (p.badge, p.time), answer := some x }) t) := by
  refine checksInOrder_congr rfl rfl (checksInOrder (injected := false) ⟨hgates, ?_, ?_⟩
    (exec_presentation hnext))
  · rw [modLine_mode, hrehearsal]
    rfl
  · rw [modLine_same]
    exact hused

/-! ### The shift that holds (R22, R23) -/

/-- The assignment gives shift `n` on a day (R22, R31). -/
def GivesShift (cal : Calendar) (a : Assignment) (day n : Nat) : Prop :=
  match a with
  | .none_ => False
  | .shift k => n = k
  | .crew c => ∃ crew : Crew, cal.crews[c - 1]? = some crew ∧
    crew.rota[(((day : Int) - crew.anchor) % crew.cycle).toNat]? = some n

theorem assignedShift_eq_iff {cal : Calendar} {a : Assignment} {day n : Nat} (hn : n ≠ 0) :
    assignedShift cal a day = n ↔ GivesShift cal a day n := by
  cases a with
  | none_ => exact ⟨fun h => hn h.symm, False.elim⟩
  | shift k => exact eq_comm
  | crew c =>
    change rotaShift cal c day = n ↔ ∃ crew : Crew, _
    unfold rotaShift
    cases hcrew : cal.crews[c - 1]? with
    | none => simpa using fun h => hn h.symm
    | some crew =>
      simp only [Option.some.injEq, exists_eq_left', List.getD_eq_getElem?_getD]
      cases hrota : crew.rota[(((day : Int) - crew.anchor) % crew.cycle).toNat]? with
      | none => simpa using fun h => hn h.symm
      | some k => simp

/-- The run of an assignment's shift on a day (R22). -/
theorem shiftRunOn_eq_some_iff {cal : Calendar} {a : Assignment} {day : Nat} {r : ShiftRun} :
    shiftRunOn cal a day = some r ↔ r.day = day ∧ GivesShift cal a r.day r.shift ∧ r.shift ≠ 0 ∧
      ∃ x : Shift, cal.shifts[r.shift - 1]? = some x ∧ x.valid = true ∧
        r.ts = r.day * 86400 + x.start * 60 ∧ r.te = r.ts + x.length * 60 := by
  have hentry (n : Nat) (x : Shift) : shiftEntry cal n = some x ↔
      n ≠ 0 ∧ cal.shifts[n - 1]? = some x ∧ x.valid = true := by
    unfold shiftEntry
    split
    · next h => simp [h]
    · next h => simp [h, Option.filter_eq_some_iff]
  unfold shiftRunOn
  dsimp only
  rw [Option.map_eq_some_iff]
  constructor
  · rintro ⟨x, hx, rfl⟩
    obtain ⟨hn, hshift, hvalid⟩ := (hentry _ _).1 hx
    exact ⟨rfl, (assignedShift_eq_iff hn).1 rfl, hn, x, hshift, hvalid, rfl, rfl⟩
  · rintro ⟨rfl, hgives, hn, x, hshift, hvalid, hts, hte⟩
    have hassigned := (assignedShift_eq_iff hn).2 hgives
    refine ⟨x, (hentry _ _).2 (by rw [hassigned]; exact ⟨hn, hshift, hvalid⟩), ?_⟩
    rw [hassigned]
    cases r
    simp only at hts hte
    rw [hte, hts]
    rfl

/-- A run of the day of `t` or of the day before whose window holds `t` (R23). -/
def Admitted (cal : Calendar) (a : Assignment) (early t : Nat) (r : ShiftRun) : Prop :=
  (r.day = t / 86400 ∨ r.day + 1 = t / 86400) ∧ GivesShift cal a r.day r.shift ∧ r.shift ≠ 0 ∧
    (∃ x : Shift, cal.shifts[r.shift - 1]? = some x ∧ x.valid = true ∧
      r.ts = r.day * 86400 + x.start * 60 ∧ r.te = r.ts + x.length * 60) ∧
    r.ts ≤ t + early * 60 ∧ t < r.te

/-- The run of the day of `t`, and that of the day before, where their windows hold `t`. -/
def admittedOn (cal : Calendar) (a : Assignment) (early t : Nat) : Option ShiftRun × Option ShiftRun :=
  ((shiftRunOn cal a (dayOf t)).filter (admits early t),
    if dayOf t = 0 then none else (shiftRunOn cal a (dayOf t - 1)).filter (admits early t))

theorem admitted_iff {cal : Calendar} {a : Assignment} {early t : Nat} {r : ShiftRun} :
    Admitted cal a early t r ↔
      (admittedOn cal a early t).1 = some r ∨ (admittedOn cal a early t).2 = some r := by
  have hadmits : admits early t r = true ↔ r.ts ≤ t + early * 60 ∧ t < r.te := by simp [admits]
  have hday : dayOf t = t / 86400 := rfl
  have hon (day : Nat) : (shiftRunOn cal a day).filter (admits early t) = some r ↔
      shiftRunOn cal a day = some r ∧ r.ts ≤ t + early * 60 ∧ t < r.te := by
    rw [Option.filter_eq_some_iff, hadmits]
  unfold admittedOn
  dsimp only
  rw [hon, hday]
  constructor
  · rintro ⟨htoday | hbefore, hgives, hn, hshift, hwindow⟩
    · exact .inl ⟨shiftRunOn_eq_some_iff.2 ⟨htoday, hgives, hn, hshift⟩, hwindow⟩
    · refine .inr ?_
      rw [if_neg (by omega), hon]
      exact ⟨shiftRunOn_eq_some_iff.2 ⟨by omega, hgives, hn, hshift⟩, hwindow⟩
  · rintro (⟨hrun, hwindow⟩ | hbefore)
    · obtain ⟨htoday, hgives, hn, hshift⟩ := shiftRunOn_eq_some_iff.1 hrun
      exact ⟨.inl htoday, hgives, hn, hshift, hwindow⟩
    · split at hbefore
      · cases hbefore
      · next hne =>
        obtain ⟨hrun, hwindow⟩ := (hon _).1 hbefore
        obtain ⟨hyesterday, hgives, hn, hshift⟩ := shiftRunOn_eq_some_iff.1 hrun
        exact ⟨.inr (by omega), hgives, hn, hshift, hwindow⟩

/-- The later of two runs, where there are two. -/
def laterRun : Option ShiftRun × Option ShiftRun → Option ShiftRun
  | (some x, some y) => some (if x.ts < y.ts then y else x)
  | (some x, none) => some x
  | (none, y) => y

theorem resolveShift_eq (cal : Calendar) (a : Assignment) (early t : Nat) :
    resolveShift cal a early t = laterRun (admittedOn cal a early t) := by
  unfold resolveShift laterRun admittedOn
  dsimp only
  cases (shiftRunOn cal a (dayOf t)).filter (admits early t)
  all_goals
    generalize (if dayOf t = 0 then none else (shiftRunOn cal a (dayOf t - 1)).filter (admits early t)) = y
    cases y <;> rfl

theorem laterRun_eq_none {o : Option ShiftRun × Option ShiftRun} :
    laterRun o = none ↔ o.1 = none ∧ o.2 = none := by
  obtain ⟨x, y⟩ := o
  cases x <;> cases y <;> simp [laterRun]

theorem laterRun_eq_some {o : Option ShiftRun × Option ShiftRun} {r : ShiftRun} (h : laterRun o = some r) :
    (o.1 = some r ∨ o.2 = some r) ∧ ∀ q, o.1 = some q ∨ o.2 = some q → q.ts ≤ r.ts := by
  obtain ⟨_ | x, _ | y⟩ := o
  · cases h
  · cases h
    simp
  · cases h
    simp
  · simp only [laterRun, Option.some.injEq] at h
    subst h
    split
    · next hlt =>
      refine ⟨.inr rfl, ?_⟩
      rintro q (hq | hq) <;> cases hq
      · exact hlt.le
      · exact le_rfl
    · next hge =>
      refine ⟨.inl rfl, ?_⟩
      rintro q (hq | hq) <;> cases hq
      · exact le_rfl
      · exact Nat.not_lt.1 hge

theorem resolveShift_none_iff {cal : Calendar} {a : Assignment} {early t : Nat} :
    resolveShift cal a early t = none ↔ ∀ r, ¬ Admitted cal a early t r := by
  rw [resolveShift_eq, laterRun_eq_none]
  simp only [admitted_iff, not_or, forall_and, ← Option.eq_none_iff_forall_ne_some]

theorem resolveShift_latest {cal : Calendar} {a : Assignment} {early t : Nat} {r : ShiftRun}
    (h : resolveShift cal a early t = some r) :
    Admitted cal a early t r ∧ ∀ q, Admitted cal a early t q → q.ts ≤ r.ts := by
  rw [resolveShift_eq] at h
  obtain ⟨hr, hlatest⟩ := laterRun_eq_some h
  exact ⟨admitted_iff.2 hr, fun q hq => hlatest q (admitted_iff.1 hq)⟩

/-- Settles O57: the check by `checksInOrder`, and the shift by the two runs that may hold. -/
theorem presentationStepsDecideInOrder : Obligations.PresentationStepsDecideInOrder :=
  ⟨fun _ _ _ hnext hgates hrehearsal hused => presentation_checks hnext hgates hrehearsal hused,
    fun _ _ _ _ => ⟨resolveShift_none_iff, fun _ h => resolveShift_latest h⟩⟩

end Sys2Proof.Machine
end


section
/-! CERTIFICATE. Selected outcomes of the presentation check (R53 to R61, R75). -/

namespace Sys2Proof.Machine

/-- Out of service a presentation is answered AMBER and leaves no record (R54). -/
theorem presentation_outOfService {l : LineNo} {p : Presentation} {s : State}
    (hnext : nextOnLine l p s = true)
    (hout : ¬(gatesRun s = true ∧ s.mode.rehearsal = false ∧ s.lines[l].desc.kind ≠ .unused)) :
    exec (.presentation l p) s = .next
      (modLine l (fun e => { e with holdOff := some (p.badge, p.time), answer := some ⟨.amber, 50⟩ })
        (modLine l (fun e => { e with waiting := e.waiting.tail }) s)) := by
  have hverdict : checkPresentation (modLine l (fun e => { e with waiting := e.waiting.tail }) s) false l p
      = .outOfService := by
    refine checkPresentation_outOfService ?_
    rw [modLine_same, modLine_mode]
    by_cases hgates : gatesRun s = true
    · by_cases hrehearsal : s.mode.rehearsal = true
      · exact .inr (.inl (by rw [hrehearsal]; rfl))
      · exact .inr (.inr (not_not.1 fun hused => hout ⟨hgates, by simpa using hrehearsal, hused⟩))
    · exact .inl (Bool.not_eq_true _ ▸ hgates)
  have htold := exec_presentation hnext
  dsimp only at htold
  rw [hverdict] at htold
  exact htold

theorem commanded_cmd {s : State} (h : s.mode.rehearsal = false) (want : Relay) (e : Door) :
    (commanded s want e).cmd = want := by
  have hasked : (if s.mode.rehearsal = true ∧ e.state ≠ .egress then Relay.locked else want) = want :=
    if_neg (by simp [h])
  unfold commanded
  dsimp only
  rw [hasked]
  by_cases hcmd : e.cmd = want
  · rw [if_pos hcmd]
    exact hcmd
  · rw [if_neg hcmd]

theorem commanded_state (s : State) (want : Relay) (e : Door) : (commanded s want e).state = e.state := by
  unfold commanded
  dsimp only
  generalize (if s.mode.rehearsal = true ∧ e.state ≠ .egress then Relay.locked else want) = asked
  split <;> rfl

/-- What a grant at a CARD door leaves (R75, R88, R170). -/
theorem card_granted {s : State} {d : DoorNo} {g : Grant} (hrehearsal : s.mode.rehearsal = false)
    (hroom : 1 ≤ freePlaces s) :
    (createGrant d g s).doors[d].state = .released ∧ (createGrant d g s).doors[d].cmd = .released ∧
      (createGrant d g s).doors[d].release = some (s.doors[d].entry.release * 16) ∧
      (createGrant d g s).doors[d].grant = some g ∧
      (∀ d' : DoorNo, d' ≠ d → (createGrant d g s).doors[d'] = s.doors[d']) ∧
      (createGrant d g s).link = { s.link with reserved := s.link.reserved + 1 } ∧
      (∀ i : Fin 15, (createGrant d g s).zones[i] = { s.zones[i] with reserved :=
        if i.val + 1 = g.target.val then s.zones[i].reserved + 1 else s.zones[i].reserved }) ∧
      (createGrant d g s).table = s.table ∧ (createGrant d g s).clock = s.clock ∧
      (createGrant d g s).ram = s.ram ∧ (createGrant d g s).lines = s.lines := by
  rw [createGrant_eq d g hroom]
  generalize hkept : modZone g.target (fun z => { z with reserved := z.reserved + 1 }) (countPlace s) = kept
  have hraise : LinkOnly kept (if freePlaces s = 1 then raise .holdFull kept else kept) := by
    split
    · exact raise_linkOnly _ _
    · exact .refl _
  have hlink : (if freePlaces s = 1 then raise .holdFull kept else kept).link = kept.link := raiseIf_link _ _ _
  have hram : (if freePlaces s = 1 then raise .holdFull kept else kept).ram = kept.ram := by
    split
    · exact raise_ram _ _
    · rfl
  generalize (if freePlaces s = 1 then raise .holdFull kept else kept) = u at hraise hlink hram
  have hdoors : u.doors = s.doors := by rw [hraise.doors, ← hkept, modZone_doors]; rfl
  refine ⟨?_, ?_, ?_, ?_, fun d' hne => ?_, ?_, fun i => ?_, ?_, ?_, ?_, ?_⟩
  · rw [modDoor_same]
    exact commanded_state s .released _
  · rw [modDoor_same]
    exact commanded_cmd hrehearsal .released _
  · rw [modDoor_same, hdoors]
  · rw [modDoor_same]
  · rw [modDoor_other d d' hne.symm, hdoors]
  · rw [modDoor_link, hlink, ← hkept, modZone_link]
    rfl
  · rw [modDoor_zones, hraise.zones, ← hkept, modZone_zone]
    split <;> rfl
  · rw [modDoor_table, hraise.table, ← hkept, modZone_table]
    rfl
  · rw [modDoor_clock, hraise.clock, ← hkept, modZone_clock]
    rfl
  · rw [modDoor_ram, hram, ← hkept, modZone_ram]
    rfl
  · rw [modDoor_lines, hraise.lines, ← hkept, modZone_lines]
    rfl

/-- A presentation whose checks all pass at a SECURE CARD door, off the clock, at the worker's own zone. -/
theorem checkPresentation_card {s : State} {l : LineNo} {p : Presentation} {d : DoorNo} {su : Setup}
    {slot : Nat} {w : Worker} (hs : InService s false l) (hkind : s.lines[l].desc.kind = .doorEntry d)
    (hfire : fireActive s = false) (hheld : heldOff s.lines[l].holdOff p = false) (hroom : hasRoom s = true)
    (hsu : s.link.setup = some su) (hsite : su.site = p.site)
    (hbadge : lookupBadge p.badge s.table.index = some slot) (hw : workerAt s slot = some w)
    (hissue : w.issue = p.issue) (hsusp : w.suspended = false) (hgrant : grantNames s slot = false)
    (hready : doorGuard s.doors[d] = none) (hclocks : s.doors[d].entry.isClocking = false)
    (hplace : w.location = s.doors[d].entry.fromZone)
    (hpass : ∀ z, zoneAt s s.doors[d].entry.toZone = some z →
      zoneRefusal z s.doors[d].entry s.lines[l].desc.level w = none ∧
        ¬(z.capacity ≠ 0 ∧ z.capacity ≤ z.occupancy + z.reserved)) :
    checkPresentation s false l p = .accepted slot .passage false := by
  have hdoor : s.lines[l].desc.kind.door = some (d, true) := by
    rw [hkind]
    rfl
  have hcode : s.lines[l].desc.kind.code ≠ 4 := by
    rw [hkind]
    exact (by decide : (1 : Nat) ≠ 4)
  have hfits : FireFits s l := ⟨fun _ => hfire, fun z hz => by
    rw [hz] at hkind
    cases hkind⟩
  have hnotClocks : ¬(s.doors[d].entry.fromZone = 0 ∧ s.doors[d].entry.clocking = true) := fun h => by
    rw [isClocking_of_clocks h] at hclocks
    cases hclocks
  have hright : ¬ w.location ≠ sourceZone s.doors[d].entry true := not_not.2 hplace
  have hchecks : doorChecks s d true s.lines[l].desc.level w = .ok false := by
    rw [doorChecks_ok (fun z hz => (hpass z hz).1) (fun h => hright h.1) fun z hz => (hpass z hz).2]
    exact congrArg Except.ok (decide_eq_false fun h => hright h.1)
  rw [checkPresentation_identify hs hfits hheld hroom,
    identify_gates hsu hsite hbadge hw hissue hsusp hcode]
  exact gateChecks_door_accepted hgrant hdoor hready hchecks (clockCheck_passage hdoor hnotClocks)

/-- The target zone takes the worker in (R59). -/
theorem zoneRefusal_none {z : Zone} {e : DoorEntry} {level : Nat} {w : Worker} (hpresent : z.present = true)
    (htype : z.type ≠ .closed) (hprofile : w.profile ≠ 0) (hallowed : e.profiles.getLsbD w.profile = true)
    (hclear : max w.clearance level ≤ z.ceiling) : zoneRefusal z e level w = none := by
  rw [zoneRefusal_present (by rw [hpresent]; decide), if_neg htype, if_neg hprofile,
    if_neg (by rw [hallowed]; decide), if_neg (Nat.not_lt.2 hclear)]

/-- Settles O48, from the check in its order and the grant of a CARD door. -/
theorem presentationIsDecidedInOrder : Obligations.PresentationIsDecidedInOrder := by
  intro l p s hnext taken answer inService c
  have hchecks (hin : inService) := presentation_checks hnext hin.1 hin.2.1 hin.2.2
  have hclock {role : Role} (hin : inService) (hkind : s.lines[l].desc.kind = .clockOnly role) :=
    (hchecks hin).2.2 (fun h => by rw [hkind] at h; cases h) (fun z h => by rw [hkind] at h; cases h)
  refine ⟨presentation_outOfService hnext, fun role hin hkind => (hclock hin hkind).1,
    fun role hin hkind => (hclock hin hkind).2.1, fun role su hin hkind hheld hroom hsu hsite hbadge => ?unknown,
    fun d su slot w hin hkind hfire hheld hroom hsu hsite hbadge hw hissue hsusp hgrant => ?card⟩
  case unknown =>
    have hrefused := ((hclock hin hkind).2.2 su hheld hroom hsu).2.1 hsite hbadge
    rw [hkind] at hrefused
    exact hrefused
  case card =>
    intro e hmode hstate hnone hcmd hclocks hplace hzone
    have hunlocked : e.entry.mode ≠ .locked := by
      rw [hmode]
      decide
    have hline : taken.lines[l].desc = s.lines[l].desc ∧ taken.lines[l].holdOff = s.lines[l].holdOff := by
      rw [modLine_same]
      exact ⟨rfl, rfl⟩
    have hverdict : checkPresentation taken false l p = .accepted slot .passage false := by
      refine checkPresentation_card (su := su) (d := d) (w := w) ⟨hin.1, ?_, ?_⟩ ?_ hfire ?_ hroom hsu hsite
        hbadge hw hissue hsusp hgrant (doorGuard_ready (e := e) hunlocked (.inl ⟨hstate, hnone⟩)) hclocks
        hplace fun z hz => ?_
      · rw [modLine_mode, hin.2.1]
        rfl
      · rw [hline.1]
        exact hin.2.2
      · rw [hline.1, hkind]
      · rw [hline.2]
        exact hheld
      · obtain ⟨i, hi, rfl⟩ := zoneAt_eq_some_iff.1 hz
        obtain ⟨hpresent, htype, hprofile, hallowed, hclear, hcap⟩ := hzone i hi
        rw [hline.1]
        exact ⟨zoneRefusal_none hpresent htype hprofile hallowed hclear,
          fun h => absurd (hcap h.1) (Nat.not_lt.2 h.2)⟩
    have htold := exec_presentation hnext
    dsimp only at htold
    rw [hverdict] at htold
    have hdoor : taken.lines[l].desc.kind.door = some (d, true) := by
      rw [hline.1, hkind]
      rfl
    have hcard := htold.card hdoor (by
      rw [modLine_doors, hstate]
      decide)
    have hgranted := card_granted (s := taken) (d := d)
      (g := ⟨slot, l, true, e.entry.fromZone, e.entry.toZone, p.time, .passage, false⟩) hin.2.1
      (freePlaces_of_hasRoom (s := taken) hroom)
    have hexec : exec c s = .next (answer ⟨.green, min 255 (e.entry.release * 10)⟩ (createGrant d
        ⟨slot, l, true, e.entry.fromZone, e.entry.toZone, p.time, .passage, false⟩ taken)) := hcard
    generalize createGrant d ⟨slot, l, true, e.entry.fromZone, e.entry.toZone, p.time, .passage, false⟩ taken
      = t at hexec hgranted
    obtain ⟨hreleased, hcommand, hrelease, hgiven, hothers, hlink, hzones, htable, hclock, hram, -⟩ := hgranted
    refine ⟨_, hexec, hreleased, hcommand, hrelease, hgiven, hothers, hlink, hzones, ?_, ?_, htable, hclock,
      hram⟩
    · exact congrArg Line.answer (modLine_same ..)
    · exact congrArg Line.holdOff (modLine_same ..)

end Sys2Proof.Machine
end


section
/-! CERTIFICATE. INJECT: a presentation, a change of contact or a press supplied in rehearsal (R64). -/

namespace Sys2Proof.Machine

/-! ### What an event does beside the request in progress -/

section Beside

variable (q : Option Request)

theorem rollCall_withRequest (slot : Nat) (l : LineNo) (z : ZoneNo) (t : Stamp) (s : State) :
    rollCall slot l z t (withRequest q s) = withRequest q (rollCall slot l z t s) := by
  unfold rollCall
  rw [workerAt_withRequest]
  split
  · rfl
  · exact handOver_withRequest q _ _ _ (setWorker slot _ s)

theorem applyAtOnce_withRequest (slot : Nat) (door : Option DoorNo) (l : LineNo) (inward : Bool)
    (target : ZoneNo) (t : Stamp) (kind : PunchKind) (soft : Bool) (s : State) :
    applyAtOnce slot door l inward target t kind soft (withRequest q s)
      = withRequest q (applyAtOnce slot door l inward target t kind soft s) := by
  have hinfo : passageInfo (withRequest q s) = passageInfo s := rfl
  unfold applyAtOnce
  rw [hinfo, moveWorker_withRequest]
  dsimp only
  rw [applyPunch_withRequest]
  exact handOver_withRequest q _ _ _ _

theorem createGrant_withRequest (d : DoorNo) (g : Grant) (s : State) :
    createGrant d g (withRequest q s) = withRequest q (createGrant d g s) := by
  have hplace : ∀ u : State, reservePlace (withRequest q u) = withRequest q (reservePlace u) := fun u => by
    rw [reservePlace_eq, reservePlace_eq]
    have hfree : freePlaces (withRequest q u) = freePlaces u := rfl
    have hless : freePlaces (countPlace (withRequest q u)) = freePlaces (countPlace u) := rfl
    rw [hfree, hless]
    split
    · exact raise_withRequest q .holdFull (countPlace u)
    · rfl
  have hzone : addReservation g.target (withRequest q s) = withRequest q (addReservation g.target s) :=
    modZone_withRequest q g.target _ s
  unfold createGrant
  rw [hzone, hplace]
  rfl

theorem outcome_withRequest (l : LineNo) (p : Presentation) (v : Verdict) (s : State) :
    outcome l p v (withRequest q s) = withRequest q (outcome l p v s) := by
  have hlines : (withRequest q s).lines = s.lines := rfl
  have hdoors : (withRequest q s).doors = s.doors := rfl
  cases v with
  | outOfService | egress | noFire | silent | busy | hold => rfl
  | refused slot reason => exact handOver_withRequest q _ _ _ s
  | rollCall slot zone => exact rollCall_withRequest q _ _ _ _ s
  | accepted slot kind soft =>
    unfold outcome
    dsimp only
    rw [hlines]
    split
    · rw [hdoors]
      split
      · exact applyAtOnce_withRequest q ..
      · exact createGrant_withRequest q ..
    · rw [workerAt_withRequest]
      exact applyAtOnce_withRequest q ..

theorem takePresentation_withRequest (injected : Bool) (l : LineNo) (p : Presentation) (s : State) :
    takePresentation injected l p (withRequest q s)
      = ((takePresentation injected l p s).1, withRequest q (takePresentation injected l p s).2) := by
  have hcheck : checkPresentation (withRequest q s) injected l p = checkPresentation s injected l p := rfl
  have hanswer : answerOf (withRequest q s) l = answerOf s l := rfl
  unfold takePresentation
  dsimp only
  rw [hcheck, hanswer, outcome_withRequest]
  cases answerOf s l (checkPresentation s injected l p) <;> rfl

theorem restore_withRequest (d : DoorNo) (alarm : Alarm) (s : State) :
    restore d alarm (withRequest q s) = withRequest q (restore d alarm s) :=
  report_withRequest q (.doorRestored d alarm (s.doors[d].alarmStart.getD s.clock.now))
    (modDoor d (enter s.mode.rehearsal .secure) s)

theorem contactEvent_withRequest (d : DoorNo) (c : Contact) (s : State) :
    contactEvent d c (withRequest q s) = withRequest q (contactEvent d c s) := by
  have hdoors : (withRequest q s).doors = s.doors := rfl
  have hclock : (withRequest q s).clock = s.clock := rfl
  have hmode : (withRequest q s).mode = s.mode := rfl
  have hmod : ∀ (f : Door → Door) (u : State), modDoor d f (withRequest q u) = withRequest q (modDoor d f u) :=
    fun _ _ => rfl
  unfold contactEvent
  rw [hdoors, hclock, hmode]
  dsimp only
  split
  · rw [hmod, hmod]
    split
    · exact passGrant_withRequest q _ _ _
    · rfl
  · rw [hmod, hmod, report_withRequest, raise_withRequest]
  · rfl
  · rw [hmod]
    exact restore_withRequest q _ _ _
  · rw [hmod]
    exact restore_withRequest q _ _ _
  · rfl

end Beside

/-! ### The place in the work list -/

theorem modZone_serve (z : ZoneNo) (f : Zone → Zone) (s : State) : ServeStep s (modZone z f s) :=
  serveStep_of_eq (by simp) (by simp) (by simp)

theorem moveWorker_serve (slot : Nat) (z : ZoneNo) (s : State) : ServeStep s (moveWorker slot z s) := by
  unfold moveWorker
  split
  · exact .refl s
  · split
    · exact .refl s
    · next w _ _ =>
      have hset : ServeStep s (setWorker slot { w with location := z } s) := serveStep_of_eq rfl rfl rfl
      exact (hset.trans (modZone_serve _ _ _)).trans (modZone_serve _ _ _)

theorem applyPunch_serve (kind : PunchKind) (p : PassageInfo) (s : State) :
    ServeStep s (applyPunch kind p s).1 := by
  unfold applyPunch
  cases kind with
  | punchIn =>
    dsimp only
    split
    · exact serveStep_of_eq rfl rfl rfl
    · exact .refl s
  | punchOut =>
    dsimp only
    split
    · split
      · exact serveStep_of_eq rfl rfl rfl
      · exact .refl s
    · exact .refl s
  | reentry | strayOut | passage => exact .refl s

theorem applyAtOnce_serve {s : State} (h : s.linkAnswers = []) (slot : Nat) (door : Option DoorNo)
    (l : LineNo) (inward : Bool) (target : ZoneNo) (t : Stamp) (kind : PunchKind) (soft : Bool) :
    ServeStep s (applyAtOnce slot door l inward target t kind soft s) := by
  have hpunch := (moveWorker_serve slot target s).trans
    (applyPunch_serve kind (passageInfo s slot door l inward target t soft) (moveWorker slot target s))
  exact hpunch.trans (handOver_serve (hpunch.answers.trans h) _ _ _)

theorem createGrant_serve (d : DoorNo) (g : Grant) (s : State) : ServeStep s (createGrant d g s) := by
  have hcount : ServeStep (addReservation g.target s) (countPlace (addReservation g.target s)) :=
    ⟨rfl, rfl, rfl, rfl, rfl, rfl, rfl⟩
  have hplace : ServeStep (addReservation g.target s) (reservePlace (addReservation g.target s)) := by
    rw [reservePlace_eq]
    split
    · exact hcount.trans (raise_serve _ _)
    · exact hcount
  have hdoor : ServeStep (reservePlace (addReservation g.target s)) (createGrant d g s) :=
    serveStep_of_eq rfl rfl rfl
  exact ((modZone_serve g.target _ s).trans hplace).trans hdoor

theorem outcome_serve {s : State} (h : s.linkAnswers = []) (l : LineNo) (p : Presentation) (v : Verdict) :
    ServeStep s (outcome l p v s) := by
  cases v with
  | outOfService | egress | noFire | silent | busy => exact .refl s
  | hold => exact ⟨rfl, rfl, rfl, rfl, rfl, rfl, rfl⟩
  | refused slot reason => exact handOver_serve h _ _ _
  | rollCall slot zone =>
    unfold outcome rollCall
    dsimp only
    split
    · exact .refl s
    · next w _ =>
      have hset : ServeStep s (setWorker slot { w with muster := true } s) := serveStep_of_eq rfl rfl rfl
      exact hset.trans (handOver_serve (hset.answers.trans h) _ _ _)
  | accepted slot kind soft =>
    unfold outcome
    dsimp only
    split
    · split
      · exact applyAtOnce_serve h ..
      · exact createGrant_serve ..
    · exact applyAtOnce_serve h ..

theorem takePresentation_serve {s : State} (h : s.linkAnswers = []) (injected : Bool) (l : LineNo)
    (p : Presentation) : ServeStep s (takePresentation injected l p s).2 := by
  have hout := outcome_serve h l p (checkPresentation s injected l p)
  unfold takePresentation
  dsimp only
  split
  · exact hout.trans (serveStep_of_eq rfl rfl rfl)
  · exact hout

theorem passGrant_serve {s : State} (h : s.linkAnswers = []) (d : DoorNo) (g : Grant) :
    ServeStep s (passGrant d g s) := by
  have hpunch : ServeStep s (applyPunch g.kind
      (passageInfo s g.slot (some d) g.line g.inward g.target g.time g.apbSoft)
      (dropReservation g.target (moveWorker g.slot g.target s))).1 :=
    ((moveWorker_serve g.slot g.target s).trans (modZone_serve g.target _ _)).trans (applyPunch_serve ..)
  unfold passGrant
  dsimp only
  generalize applyPunch g.kind (passageInfo s g.slot (some d) g.line g.inward g.target g.time g.apbSoft)
    (dropReservation g.target (moveWorker g.slot g.target s)) = punched at hpunch ⊢
  have hover := hpunch.trans (handOver_serve (hpunch.answers.trans h) true s.clock.now punched.2)
  exact hover.trans (afterGrant_serve (hover.answers.trans h) g.slot)

theorem modDoor_serve (d : DoorNo) (f : Door → Door) (s : State) : ServeStep s (modDoor d f s) :=
  serveStep_of_eq rfl rfl rfl

theorem contactEvent_serve {s : State} (h : s.linkAnswers = []) (d : DoorNo) (c : Contact) :
    ServeStep s (contactEvent d c s) := by
  have hmod := modDoor_serve d (fun e => { e with contact := c }) s
  unfold contactEvent
  dsimp only
  generalize modDoor d (fun e => { e with contact := c }) s = s1 at hmod ⊢
  have hnext (f : Door → Door) : ServeStep s (modDoor d f s1) := hmod.trans (modDoor_serve d f s1)
  split
  · split
    · exact (hnext _).trans (passGrant_serve ((hnext _).answers.trans h) _ _)
    · exact hnext _
  · exact ((hnext _).trans (report_serve ((hnext _).answers.trans h) _)).trans (raise_serve _ _)
  · exact hnext _
  · exact (hnext _).trans (report_serve ((hnext _).answers.trans h) _)
  · exact (hnext _).trans (report_serve ((hnext _).answers.trans h) _)
  · exact hmod

/-! ### The take of an INJECT -/

theorem exec_inject (notify : Bool) (p : InjectParams) (s : State) :
    exec (.inject notify p) s = .next (carryOut (.inject p) notify (takeInject p) s) := rfl

theorem lineOf_eq_none {n : Nat} (h : 23 < n) : lineOf n = none := dif_neg (by omega)

theorem lineOf_val (l : LineNo) : lineOf l.val = some l := dif_pos l.isLt

section Take

variable {p : InjectParams} {s : State}

theorem takeInject_notRehearsal (h : s.mode.rehearsal = false) :
    takeInject p s = endRequest .notRehearsal none none s := if_pos h

variable (h : s.mode.rehearsal = true)
include h

theorem takeInject_rehearsal : takeInject p s =
    if p.event = 0 then (lineOf p.unit).elim (endRequest .range none none s) fun l =>
      if p.issue ≤ 15 then endRequest .done
        (some (answerCount (takePresentation true l ⟨p.site, p.badge, p.issue, s.clock.now⟩ s).1)) (some 0)
        (takePresentation true l ⟨p.site, p.badge, p.issue, s.clock.now⟩ s).2
      else endRequest .range none none s
    else if p.event = 1 then (doorOf p.unit).elim (endRequest .range none none s) fun d =>
      (Contact.ofCode p.contact).elim (endRequest .range none none s) fun c =>
        endRequest .done (some 0) (some 0) (if s.doors[d].contact = c then s else contactEvent d c s)
    else if p.event = 2 then (doorOf p.unit).elim (endRequest .range none none s) fun d =>
      endRequest .done (some 0) (some 0) (pressRex d s)
    else endRequest .range none none s := by
  unfold takeInject
  rw [if_neg (by rw [h]; decide)]
  refine if_congr Iff.rfl ?_ (if_congr Iff.rfl ?_ (if_congr Iff.rfl ?_ rfl))
  · cases lineOf p.unit <;> rfl
  · cases doorOf p.unit <;> cases Contact.ofCode p.contact <;> rfl
  · cases doorOf p.unit <;> rfl

theorem takeInject_range (hbad : 2 < p.event ∨ (p.event = 0 ∧ (23 < p.unit ∨ 15 < p.issue)) ∨
      (p.event = 1 ∧ (11 < p.unit ∨ 1 < p.contact)) ∨ (p.event = 2 ∧ 11 < p.unit)) :
    takeInject p s = endRequest .range none none s := by
  rw [takeInject_rehearsal h]
  obtain hevent | ⟨hevent, hunit | hissue⟩ | ⟨hevent, hunit | hcontact⟩ | ⟨hevent, hunit⟩ := hbad
  · rw [if_neg (by omega), if_neg (by omega), if_neg (by omega)]
  · rw [if_pos hevent, lineOf_eq_none hunit]
    rfl
  · rw [if_pos hevent]
    cases lineOf p.unit with
    | none => rfl
    | some l => exact if_neg (by omega)
  · rw [hevent, if_neg (by decide), if_pos rfl, doorOf_eq_none hunit]
    rfl
  · have hnone : Contact.ofCode p.contact = none := by
      match p.contact, hcontact with
      | _ + 2, _ => rfl
    rw [hevent, if_neg (by decide), if_pos rfl, hnone]
    cases doorOf p.unit <;> rfl
  · rw [hevent, if_neg (by decide), if_neg (by decide), if_pos rfl, doorOf_eq_none hunit]
    rfl

theorem takeInject_present {l : LineNo} (hevent : p.event = 0) (hunit : l.val = p.unit) (hissue : p.issue ≤ 15) :
    takeInject p s = endRequest .done
      (some (answerCount (takePresentation true l ⟨p.site, p.badge, p.issue, s.clock.now⟩ s).1)) (some 0)
      (takePresentation true l ⟨p.site, p.badge, p.issue, s.clock.now⟩ s).2 := by
  rw [takeInject_rehearsal h, if_pos hevent, ← hunit, lineOf_val]
  exact if_pos hissue

theorem takeInject_contact {d : DoorNo} {c : Contact} (hevent : p.event = 1) (hunit : d.val = p.unit)
    (hc : Contact.ofCode p.contact = some c) : takeInject p s =
      endRequest .done (some 0) (some 0) (if s.doors[d].contact = c then s else contactEvent d c s) := by
  rw [takeInject_rehearsal h, hevent, if_neg (by decide), if_pos rfl, ← hunit, doorOf_val, hc]
  rfl

theorem takeInject_rex {d : DoorNo} (hevent : p.event = 2) (hunit : d.val = p.unit) :
    takeInject p s = endRequest .done (some 0) (some 0) (pressRex d s) := by
  rw [takeInject_rehearsal h, hevent, if_neg (by decide), if_neg (by decide), if_pos rfl, ← hunit, doorOf_val]
  rfl

end Take

/-- A press while a request that is no CLEAR_FAULT check is in progress, or none. -/
theorem pressRex_withRequest {q : Request} {s : State} (hq : s.link.request = none) (d : DoorNo)
    (htaken : q.stage = .taken) :
    pressRex d (withRequest (some q) s) = withRequest (some q) (pressRex d s) ∧ ServeStep s (pressRex d s) := by
  have hchecks : checksDoor (withRequest (some q) s) d = false := by
    unfold checksDoor
    split
    · next heq =>
      cases heq
      cases htaken
    · rfl
  have hnone : checksDoor s d = false := by
    unfold checksDoor
    rw [hq]
  have hdoors : (withRequest (some q) s).doors = s.doors := rfl
  have hregs : (withRequest (some q) s).regs = s.regs := rfl
  have hmode : (withRequest (some q) s).mode = s.mode := rfl
  unfold pressRex
  rw [hchecks, hnone, hdoors, hregs, hmode]
  dsimp only
  by_cases h : s.regs.run = .clearing ∨ s.doors[d].entry.rexEnable = false
  · rw [if_pos h, if_pos h]
    exact ⟨rfl, .refl s⟩
  · rw [if_neg h, if_neg h]
    cases s.doors[d].state with
    | inactive | secure | released | fault => exact ⟨rfl, modDoor_serve _ _ s⟩
    | open_ | held | forced | free | egress => exact ⟨rfl, .refl s⟩

/-- An injected presentation, in the words of the statements. -/
theorem exec_inject_present {notify : Bool} {p : InjectParams} {s : State} {su : Setup} (h : ReadyFor s su)
    (hr : s.mode.rehearsal = true) {l : LineNo} (hevent : p.event = 0) (hunit : l.val = p.unit)
    (hissue : p.issue ≤ 15) :
    Told s l ⟨p.site, p.badge, p.issue, s.clock.now⟩
      (fun a t => exec (.inject notify p) s = .next (answered su notify .done (some (a.elim 0 (·.lamp.code)))
        (some 0) (a.elim t fun _ => modLine l (fun e => { e with holdOff := some (p.badge, s.clock.now) }) t)))
      (checkPresentation s true l ⟨p.site, p.badge, p.issue, s.clock.now⟩) := by
  have hserve := takePresentation_serve h.answers true l ⟨p.site, p.badge, p.issue, s.clock.now⟩
  have htake : takeInject p (withRequest (some ⟨.inject p, notify, .taken, 0, 0⟩) s) = endRequest .done
      (some (answerCount (takePresentation true l ⟨p.site, p.badge, p.issue, s.clock.now⟩ s).1)) (some 0)
      (withRequest (some ⟨.inject p, notify, .taken, 0, 0⟩)
        (takePresentation true l ⟨p.site, p.badge, p.issue, s.clock.now⟩ s).2) := by
    rw [takeInject_present (s := withRequest (some ⟨.inject p, notify, .taken, 0, 0⟩) s) hr hevent hunit hissue]
    exact congrArg (fun x : Option Answer × State => endRequest .done (some (answerCount x.1)) (some 0) x.2)
      (takePresentation_withRequest (some ⟨.inject p, notify, .taken, 0, 0⟩) true l
        ⟨p.site, p.badge, p.issue, s.clock.now⟩ s)
  have hended := carryOut_ends (notify := notify) h (h.serve hserve) htake
  unfold Told
  rw [exec_inject, hended]
  unfold takePresentation
  dsimp only
  cases answerOf s l (checkPresentation s true l ⟨p.site, p.badge, p.issue, s.clock.now⟩) <;> rfl

theorem modDoor_id (d : DoorNo) (s : State) : modDoor d id s = s := by
  unfold modDoor
  simp

/-- Settles O45, by the take of each kind of event beside the request in progress. -/
theorem injectSuppliesOneEvent : Obligations.InjectSuppliesOneEvent := by
  intro notify p s su h done seen
  have hends {st : Status} {count resume : Option Nat} {t : State} (ht : ReadyFor t su)
      (hf : takeInject p (beginRequest (.inject p) notify s)
        = endRequest st count resume (beginRequest (.inject p) notify t)) :
      exec (.inject notify p) s = .next (answered su notify st count resume t) :=
    congrArg Host.Outcome.next (carryOut_ends h ht hf)
  refine ⟨fun hr => hends h (takeInject_notRehearsal hr), fun hr hbad => hends h (takeInject_range hr hbad),
    fun l hr hevent hunit hissue => ⟨fun hunused => ?unused, fun hused => ?present⟩,
    fun d c hr hevent hunit hc => ⟨fun hsame => ?same, fun hother => ?contact⟩,
    fun d hr hevent hunit => ⟨fun hrex => ?disregarded, fun hrex => ?press⟩⟩
  case unused =>
    have htold := exec_inject_present (notify := notify) h hr hevent hunit hissue
    rw [checkPresentation_outOfService (.inr (.inr hunused))] at htold
    exact htold
  case present =>
    have hgates : gatesRun s = true := by
      unfold gatesRun
      rw [h.running]
      rfl
    exact checksInOrder (injected := true) ⟨hgates, by rw [hr]; rfl, hused⟩
      (exec_inject_present (notify := notify) h hr hevent hunit hissue)
  case same =>
    refine hends h ((takeInject_contact (s := beginRequest _ _ s) hr hevent hunit hc).trans ?_)
    exact congrArg (endRequest .done (some 0) (some 0)) (if_pos hsame)
  case contact =>
    have hdone : done 0 (contactEvent d c s) := by
      refine hends (h.serve (contactEvent_serve h.answers d c))
        ((takeInject_contact (s := beginRequest _ _ s) hr hevent hunit hc).trans ?_)
      exact congrArg (endRequest .done (some 0) (some 0))
        ((if_neg hother).trans (contactEvent_withRequest _ d c s))
    rw [← modDoor_id d s] at hdone
    exact contactActs_contactEvent (g := id) (fun e => ⟨e.circuit, rfl⟩) d c s hdone
  case disregarded =>
    have hpress : pressRex d (beginRequest (.inject p) notify s) = beginRequest (.inject p) notify s :=
      if_pos (.inr hrex)
    exact hends h ((takeInject_rex (s := beginRequest _ _ s) hr hevent hunit).trans
      (congrArg (endRequest .done (some 0) (some 0)) hpress))
  case press =>
    obtain ⟨hpress, hserve⟩ := pressRex_withRequest (q := ⟨.inject p, notify, .taken, 0, 0⟩) h.request d rfl
    refine rexActs_pressRex (by rw [h.running]; decide) hrex (hends (h.serve hserve) ?_)
    exact (takeInject_rex (s := beginRequest _ _ s) hr hevent hunit).trans
      (congrArg (endRequest .done (some 0) (some 0)) hpress)

end Sys2Proof.Machine
end


section
/-! SUPPORT. What HALT leaves, with the gates stopped (R101, R147, R159, R177). -/

namespace Sys2Proof.Machine

/-! ### What HALT leaves unchanged -/

/-- `t` has kept what HALT leaves of `s` beside the doors, the journal and the request. -/
structure HaltFrame (s t : State) : Prop where
  clock : t.clock = s.clock
  mode : t.mode = s.mode
  cal : t.cal = s.cal
  pay : t.pay = s.pay
  lines : t.lines = s.lines
  bells : t.bells = s.bells
  fire : t.fire = s.fire
  index : t.table.index = s.table.index
  capacity : t.table.capacity = s.table.capacity
  occupancy : ∀ i : Fin 15, t.zones[i].occupancy = s.zones[i].occupancy
  muster : t.link.muster = s.link.muster
  request : s.link.request = none → t.link.request = none
  configValid : t.regs.configValid = s.regs.configValid
  halted : s.regs.run = .halted → t.regs.run = .halted

theorem HaltFrame.refl (s : State) : HaltFrame s s :=
  ⟨rfl, rfl, rfl, rfl, rfl, rfl, rfl, rfl, rfl, fun _ => rfl, rfl, id, rfl, id⟩

theorem HaltFrame.trans {s t u : State} (h : HaltFrame s t) (k : HaltFrame t u) : HaltFrame s u :=
  ⟨k.clock.trans h.clock, k.mode.trans h.mode, k.cal.trans h.cal, k.pay.trans h.pay, k.lines.trans h.lines,
    k.bells.trans h.bells, k.fire.trans h.fire, k.index.trans h.index, k.capacity.trans h.capacity,
    fun i => (k.occupancy i).trans (h.occupancy i), k.muster.trans h.muster, k.request ∘ h.request,
    k.configValid.trans h.configValid, k.halted ∘ h.halted⟩

theorem LinkOnly.haltFrame {s t : State} (h : LinkOnly s t) : HaltFrame s t where
  clock := h.clock
  mode := h.mode
  cal := h.cal
  pay := h.pay
  lines := h.lines
  bells := h.bells
  fire := h.fire
  index := congrArg WorkerTable.index h.table
  capacity := congrArg WorkerTable.capacity h.table
  occupancy := fun i => by rw [h.zones]
  muster := h.muster
  request := fun hn => h.request.elim (fun he => he.trans hn) id
  configValid := h.configValid
  halted := fun hr => h.run.elim (fun he => he.trans hr) fun hi => by
    rw [hi.1] at hr
    cases hr

theorem haltAnswer_frame (q : Request) (s : State) : HaltFrame s (haltAnswer q s).2.2 := by
  have hdrop (s : State) : HaltFrame s { s with link := { s.link with output := none } } :=
    { HaltFrame.refl s with }
  have hundo (r : StatementRec) : HaltFrame s (undoCopy r s) := by
    unfold undoCopy
    split
    · exact .refl s
    · split
      · exact { HaltFrame.refl s with }
      · exact .refl s
  unfold haltAnswer
  dsimp only
  split
  · split
    · exact (hundo _).trans (hdrop _)
    · exact hdrop s
  · exact hdrop s
  · exact hdrop s
  all_goals exact .refl s

theorem haltRequest_frame (now : Bool) (s : State) :
    HaltFrame s (haltRequest now s) ∧ (haltRequest now s).link.request = none := by
  unfold haltRequest
  split
  · next h => exact ⟨.refl s, h⟩
  · next q _ =>
    have hanswer := haltAnswer_frame q s
    have hpend := (pendReturn_linkOnly .haltedPartial (haltAnswer q s).1 (haltAnswer q s).2.1
      (haltAnswer q s).2.2).haltFrame
    have hnone : (pendReturn .haltedPartial (haltAnswer q s).1 (haltAnswer q s).2.1
        (haltAnswer q s).2.2).link.request = none := by
      unfold pendReturn
      split
      · next h => exact h
      · rfl
    have hsettle := (settleReturn_linkOnly (pendReturn .haltedPartial (haltAnswer q s).1
      (haltAnswer q s).2.1 (haltAnswer q s).2.2)).haltFrame
    dsimp only
    split
    · exact ⟨(hanswer.trans hpend).trans hsettle, hsettle.request hnone⟩
    · exact ⟨hanswer.trans hpend, hnone⟩

/-! ### The grants end -/

/-- One door's grant lapses with the gates stopped. -/
theorem lapseGrant_stopped {s : State} {d : DoorNo} {g : Grant} (hg : s.doors[d].grant = some g)
    (hgates : gatesRun s = false) (cause : LapseCause) : lapseGrant d cause s = handOver true s.clock.now
      (.lapsed g.slot ((workerAt s g.slot).elim 0 (·.badge)) d g.line g.inward g.kind cause g.time)
      (dropReservation g.target (modDoor d (fun e => { e with grant := none }) s)) := by
  unfold lapseGrant
  rw [hg]
  refine afterGrant_of_calm (.inl ?_)
  rw [(handOver_linkOnly _ _ _ _).gatesRun]
  exact (gatesRun_congr ((modZone_regs _ _ _).trans (modDoor_regs _ _ _))).trans hgates

theorem dropReservation_frame (z : ZoneNo) (s : State) : HaltFrame s (dropReservation z s) where
  clock := modZone_clock _ _ _
  mode := modZone_mode _ _ _
  cal := modZone_cal _ _ _
  pay := modZone_pay _ _ _
  lines := modZone_lines _ _ _
  bells := modZone_bells _ _ _
  fire := modZone_fire _ _ _
  index := congrArg WorkerTable.index (modZone_table _ _ _)
  capacity := congrArg WorkerTable.capacity (modZone_table _ _ _)
  occupancy := fun i => by
    unfold dropReservation
    rw [modZone_zone]
    split <;> rfl
  muster := congrArg Link.muster (modZone_link _ _ _)
  request := fun h => (congrArg Link.request (modZone_link _ _ _)).trans h
  configValid := congrArg Regs.configValid (modZone_regs _ _ _)
  halted := fun h => (congrArg Regs.run (modZone_regs _ _ _)).trans h

theorem gatesRun_halted {s : State} (h : s.regs.run = .halted) : gatesRun s = false := by
  unfold gatesRun
  rw [h]
  rfl

/-- The doors, in `l`, that hold a grant into zone `i`. -/
def grantsInto (s : State) (i : Fin 15) (l : List DoorNo) : Nat :=
  l.countP fun d => s.doors[d].grant.any fun g => g.target.val == i.val + 1

theorem grantsInto_none {s : State} {d : DoorNo} (hg : s.doors[d].grant = none) (i : Fin 15) :
    grantsInto s i [d] = 0 := by
  unfold grantsInto
  rw [List.countP_singleton, hg]
  rfl

theorem grantsInto_some {s : State} {d : DoorNo} {g : Grant} (hg : s.doors[d].grant = some g) (i : Fin 15) :
    grantsInto s i [d] = if i.val + 1 = g.target.val then 1 else 0 := by
  unfold grantsInto
  rw [List.countP_singleton, hg]
  exact if_congr (beq_iff_eq.trans eq_comm) rfl rfl

theorem lapseGrant_haltFrame {s : State} (h : s.regs.run = .halted) (d : DoorNo) (cause : LapseCause) :
    HaltFrame s (lapseGrant d cause s) ∧ ∀ i : Fin 15, (lapseGrant d cause s).zones[i] =
      { s.zones[i] with reserved := s.zones[i].reserved - grantsInto s i [d] } := by
  cases hg : s.doors[d].grant with
  | none =>
    rw [lapseGrant_none hg]
    refine ⟨.refl s, fun i => ?_⟩
    rw [grantsInto_none hg]
    rfl
  | some g =>
    have hdoor : HaltFrame s (modDoor d (fun e => { e with grant := none }) s) := { HaltFrame.refl s with }
    have honly := handOver_linkOnly true s.clock.now
      (.lapsed g.slot ((workerAt s g.slot).elim 0 (·.badge)) d g.line g.inward g.kind cause g.time)
      (dropReservation g.target (modDoor d (fun e => { e with grant := none }) s))
    rw [lapseGrant_stopped hg (gatesRun_halted h)]
    refine ⟨(hdoor.trans (dropReservation_frame _ _)).trans honly.haltFrame, fun i => ?_⟩
    rw [honly.zones]
    unfold dropReservation
    rw [modZone_zone, modDoor_zones, grantsInto_some hg]
    split <;> rfl

/-- The lapses of a list of doors, with the gates stopped. -/
theorem foldl_lapseGrant_haltFrame (cause : LapseCause) {s : State} : ∀ (l : List DoorNo) {u : State},
    l.Nodup → u.regs.run = .halted → (∀ d ∈ l, u.doors[d] = s.doors[d]) →
    HaltFrame u (l.foldl (fun s d => lapseGrant d cause s) u) ∧
      ∀ i : Fin 15, (l.foldl (fun s d => lapseGrant d cause s) u).zones[i] =
        { u.zones[i] with reserved := u.zones[i].reserved - grantsInto s i l }
  | [], u, _, _, _ => ⟨.refl u, fun _ => rfl⟩
  | d :: rest, u, hnodup, hrun, hdoors => by
    obtain ⟨hnot, hrest⟩ := List.nodup_cons.1 hnodup
    obtain ⟨hone, hzone⟩ := lapseGrant_haltFrame hrun d cause
    obtain ⟨hmore, hzones⟩ := foldl_lapseGrant_haltFrame cause rest hrest (hone.halted hrun) fun k hk => by
      have hne : d.val ≠ k.val := fun h => hnot (Fin.ext h ▸ hk)
      rw [← hdoors k (List.mem_cons_of_mem d hk), (lapseGrant_doorStep d cause u).doors]
      simp [hne]
    refine ⟨hone.trans hmore, fun i => ?_⟩
    have hcount : grantsInto s i (d :: rest) = grantsInto u i [d] + grantsInto s i rest := by
      unfold grantsInto
      rw [List.countP_cons, List.countP_singleton, hdoors d List.mem_cons_self, Nat.add_comm]
    rw [List.foldl_cons, hzones, hzone, hcount, Nat.sub_add_eq]

theorem grantsInto_allDoors (s : State) (i : Fin 15) : grantsInto s i allDoors =
    s.doors.toList.countP (fun e => e.grant.any fun g => g.target.val == i.val + 1) := by
  have hlist : s.doors.toList = allDoors.map fun d => s.doors[d] := by
    rw [allDoors_eq]
    exact List.ext_getElem (by simp) fun k hk hk' => by simp
  rw [hlist, List.countP_map]
  rfl

/-- Every grant ends and every door not in EGRESS enters a state, with the gates stopped. -/
theorem settleDoors_haltFrame {u : State} (hrun : u.regs.run = .halted) (st : DoorState) (cause : LapseCause) :
    HaltFrame u (settleDoors st cause u) ∧ ∀ i : Fin 15, (settleDoors st cause u).zones[i] =
      { u.zones[i] with reserved := u.zones[i].reserved -
        u.doors.toList.countP (fun e => e.grant.any fun g => g.target.val == i.val + 1) } := by
  have hfold := foldl_lapseGrant_haltFrame cause (s := u) allDoors (by decide) hrun fun _ _ => rfl
  have htyped : HaltFrame u (forDoors (fun d s => lapseGrant d cause s) u) ∧
      ∀ i : Fin 15, (forDoors (fun d s => lapseGrant d cause s) u).zones[i] =
        { u.zones[i] with reserved := u.zones[i].reserved - grantsInto u i allDoors } := hfold
  unfold settleDoors
  generalize forDoors (fun d s => lapseGrant d cause s) u = v at htyped ⊢
  obtain ⟨hframe, hzones⟩ := htyped
  have hmap (f : Door → Door) : HaltFrame v (mapDoors f v) := { HaltFrame.refl v with }
  refine ⟨hframe.trans (hmap _), fun i => ?_⟩
  rw [← grantsInto_allDoors]
  exact hzones i

/-! ### Past the doors -/

theorem haltMuster_eq (s : State) : haltMuster s = { s with
    fire := { s.fire with
      musterPending := (s.link.muster.isSome && fireActive s) || s.fire.musterPending }
    link := { s.link with muster := none } } := by
  obtain ⟨clock, mode, cal, table, lines, zones, doors, pay, bells, fire, link, regs, ram, answers,
    pending⟩ := s
  obtain ⟨setup, workPos, journalPos, fill, queue, reserved, holdGap, lost, seq, contWritten, request,
    output, ret, muster, pollTimer, draws⟩ := link
  obtain ⟨state, captured, musterPending, evacMask, deferred⟩ := fire
  cases muster with
  | none => rfl
  | some m => cases state <;> rfl

theorem haltRest_eq (s : State) : haltRest s = { s with
    bells := { s.bells with due := [], circuits := s.bells.circuits.map Circuit.silence }
    fire := { s.fire with
      musterPending := (s.link.muster.isSome && fireActive s) || s.fire.musterPending }
    table := { s.table with workers := s.table.workers.map fun e =>
      (e.1, { e.2 with interval := e.2.interval.map fun i => { i with due := false } }) }
    link := { s.link with muster := none, pollTimer := none } } := by
  unfold haltRest
  rw [haltMuster_eq, haltBells_spec]
  rfl

end Sys2Proof.Machine
end


section
/-! CERTIFICATE. HALT in each run state (R42, R80, R101, R137, R147, R159, R177, R181). -/

namespace Sys2Proof.Machine

theorem exec_halt (begun : Bool) (s : State) : exec (.halt begun) s = .next (haltOp begun s) := rfl

theorem haltOp_gates {begun : Bool} {s : State} (h : s.regs.run = .running ∨ s.regs.run = .isolated) :
    haltOp begun s = haltRunning s := by
  unfold haltOp
  obtain h | h := h <;> rw [h]

theorem haltOp_loading {begun : Bool} {s : State} (h : s.regs.run = .loading) :
    haltOp begun s = abandonLoad begun s := by
  unfold haltOp
  rw [h]

theorem haltOp_other {begun : Bool} {s : State} (h : s.regs.run = .clearing ∨ s.regs.run = .halted) :
    haltOp begun s = s := by
  unfold haltOp
  obtain h | h := h <;> rw [h]

/-! ### LOADING -/

/-- A load abandoned leaves the table as it was, or cleared with its roster step begun (R42). -/
theorem abandonLoad_cases (begun : Bool) (s : State) : ∃ t : State,
    abandonLoad begun s
      = { t with regs := { t.regs with run := .halted, configValid := false, runMark := false } } ∧
    t.regs = s.regs ∧ ((t.table = s.table ∧ t.zones = s.zones) ∨
      (t.table.workers = [] ∧ t.table.index = [] ∧ ∀ i : Fin 15, t.zones[i].occupancy = 0)) ∧
    t.clock = s.clock ∧ t.doors = s.doors ∧ t.lines = s.lines ∧ t.bells = s.bells ∧ t.fire = s.fire ∧
    t.link = s.link ∧ t.ram = s.ram := by
  by_cases h : (begun && reachesRoster s) = true
  · refine ⟨openRoster (readSetup s.ram s.regs.setupAddr) s, ?_, rfl, .inr ⟨rfl, rfl, fun i => ?_⟩, rfl, rfl,
      rfl, rfl, rfl, rfl, rfl⟩
    · unfold abandonLoad
      rw [if_pos h]
    · rw [openRoster_eq]
      simp [emptied]
  · refine ⟨s, ?_, rfl, .inl ⟨rfl, rfl⟩, rfl, rfl, rfl, rfl, rfl, rfl, rfl⟩
    unfold abandonLoad
    rw [if_neg h]

/-! ### RUNNING and ISOLATED -/

/-- What the request in progress and a muster write leave, before the doors. -/
def haltBegun (s : State) : State := haltWork (musterCut s)

theorem haltBegun_frame (s : State) : HaltFrame s (haltBegun s) ∧ (haltBegun s).regs.run = .halted ∧
    (haltBegun s).link.request = none ∧ (haltBegun s).doors = s.doors := by
  have hcut := musterCut_linkOnly s
  have hset : HaltFrame (musterCut s) (setRun .halted (musterCut s)) :=
    { HaltFrame.refl (musterCut s) with halted := fun _ => rfl }
  obtain ⟨hwork, hnone⟩ := haltRequest_frame ((musterCut s).regs.run == .running) (setRun .halted (musterCut s))
  have hdoors := (haltRequest_workStep ((musterCut s).regs.run == .running)
    (setRun .halted (musterCut s))).doors
  exact ⟨(hcut.haltFrame.trans hset).trans hwork, hwork.halted rfl, hnone, hdoors.trans hcut.doors⟩

theorem haltRunning_begun (s : State) :
    haltRunning s = haltRest (settleDoors .inactive .halt (haltBegun s)) := haltRunning_eq s

theorem silence_evac {k : Circuit} {phase : Nat} (h : k = .evacuate phase) : k.silence = .evacuate phase := by
  rw [h]
  rfl

/-- What HALT leaves while the gates run, whatever the memory link answers. -/
theorem haltRunning_stops (s : State) : let t := haltRunning s
    t.regs.run = .halted ∧ t.regs.configValid = s.regs.configValid ∧
      t.link.request = none ∧ t.link.muster = none ∧ t.link.pollTimer = none ∧
      (∀ d : DoorNo, t.doors[d].grant = none ∧ t.doors[d].mark = s.doors[d].mark ∧
        (s.doors[d].state = .egress → t.doors[d].state = .egress) ∧
        (s.doors[d].state ≠ .egress → t.doors[d].state = .inactive ∧ t.doors[d].cmd = .locked ∧
          t.doors[d].release = none ∧ t.doors[d].held = none ∧ t.doors[d].alarmStart = none)) ∧
      (∀ c : CircuitNo,
        (∀ phase : Nat, s.bells.circuits[c] = .evacuate phase →
          t.bells.circuits[c] = .evacuate phase) ∧
        (s.bells.circuits[c].isEvac = false → t.bells.circuits[c] = .idle)) ∧
      (s.link.muster.isSome = true → fireActive s = true → t.fire.musterPending = true) ∧
      t.table.index = s.table.index ∧ t.table.capacity = s.table.capacity ∧
      (∀ i : Fin 15, t.zones[i].occupancy = s.zones[i].occupancy) ∧
      t.clock = s.clock ∧ t.mode = s.mode ∧ t.cal = s.cal ∧ t.pay = s.pay ∧ t.lines = s.lines := by
  intro t
  obtain ⟨hbegun, hrun, hnone, hdoors⟩ := haltBegun_frame s
  have hsettled := (settleDoors_haltFrame hrun .inactive .halt).1
  have hspec := (settleDoors_spec .inactive .halt (haltBegun s)).2
  have ht : t = haltRest (settleDoors .inactive .halt (haltBegun s)) := haltRunning_begun s
  clear_value t
  have hall := hbegun.trans hsettled
  have hhalted := hsettled.halted hrun
  have hrequest := hsettled.request hnone
  generalize settleDoors .inactive .halt (haltBegun s) = v at hspec ht hall hhalted hrequest
  rw [haltRest_eq] at ht
  subst ht
  refine ⟨hhalted, hall.configValid, hrequest, rfl, rfl, fun d => ?_, fun c => ?_, fun hm hf => ?_,
    hall.index, hall.capacity, hall.occupancy, hall.clock, hall.mode, hall.cal, hall.pay, hall.lines⟩
  · obtain ⟨hgrant, hmark, -, hegress, hother⟩ :=
      settledDoor_letGo (haltBegun s).mode.rehearsal .inactive (haltBegun s).doors[d]
    rw [← hspec d] at hgrant hmark hegress hother
    rw [hdoors] at hmark hegress hother
    refine ⟨hgrant, hmark, hegress, fun hne => ?_⟩
    obtain ⟨hstate, hcmd, hrelease, hheld, halarm⟩ := hother hne
    exact ⟨hstate, hcmd.trans (ite_self _), hrelease, hheld, halarm⟩
  · have hcircuit : (v.bells.circuits.map Circuit.silence)[c] = Circuit.silence s.bells.circuits[c] := by
      rw [hall.bells]
      simp
    exact ⟨fun phase h => hcircuit.trans (silence_evac h),
      fun h => hcircuit.trans (silence_idle_of_not_evac _ h)⟩
  · have hfire : fireActive v = fireActive s := by
      unfold fireActive
      rw [hall.fire]
    change ((v.link.muster.isSome && fireActive v) || v.fire.musterPending) = true
    rw [hall.muster, hfire, hm, hf]
    rfl

/-! ### The records and the return, with every access answered well -/

theorem foldl_lapseTold_halted (s : State) : ∀ (l : List DoorNo) {u : State}, u.regs.run = .halted →
    (l.foldl (lapseTold .halt s) u).ram = u.ram
  | [], _, _ => rfl
  | d :: rest, u, h => by
    have hone : (lapseTold .halt s u d).ram = u.ram ∧ (lapseTold .halt s u d).regs.run = .halted := by
      unfold lapseTold
      cases s.doors[d].grant with
      | none => exact ⟨rfl, h⟩
      | some g => exact ⟨handOver_joins_ram (by rw [h]; decide) (.inl (by rw [h]; decide)) (.inl rfl) _ _,
          (handOver_linkOnly _ _ _ _).haltFrame.halted h⟩
    exact (foldl_lapseTold_halted s rest hone.2).trans hone.1

theorem lapseTold_congr {s u : State} (hdoors : u.doors = s.doors) (hclock : u.clock = s.clock)
    (hbadge : ∀ slot, (workerAt u slot).elim 0 (·.badge) = (workerAt s slot).elim 0 (·.badge))
    (cause : LapseCause) : lapseTold cause u = lapseTold cause s := by
  funext v d
  unfold lapseTold
  rw [hdoors, hclock]
  cases s.doors[d].grant with
  | none => rfl
  | some g =>
    dsimp only [Option.elim_some]
    rw [hbadge]

/-- The state `u` that HALT has made of the request keeps what the doors' records name of `s`. -/
structure RequestEnded (s u : State) : Prop where
  halted : u.regs.run = .halted
  doors : u.doors = s.doors
  clock : u.clock = s.clock
  zones : u.zones = s.zones
  badges : ∀ slot, (workerAt u slot).elim 0 (·.badge) = (workerAt s slot).elim 0 (·.badge)

theorem RequestEnded.answered {s u : State} (h : RequestEnded s u) (su : Setup) (n : Bool) (st : Status)
    (count resume : Option Nat) : RequestEnded s (answered su n st count resume u) := by
  obtain ⟨hclock, -, -, htable, -, hzones, hdoors, -, -, -, hrun, -, -⟩ := answered_frame su n st count resume u
  refine ⟨hrun.trans h.halted, hdoors.trans h.doors, hclock.trans h.clock, hzones.trans h.zones, fun slot => ?_⟩
  rw [workerAt_congr htable]
  exact h.badges slot

/-- HALT, from the state that the request's end has left, in the words of the statements. -/
theorem haltRest_ended {s u : State} (h : RequestEnded s u) :
    let lapsed := (List.finRange 12).foldl (lapseTold .halt s) u
    let t := haltRest (settleDoors .inactive .halt u)
    t.link = { lapsed.link with muster := none, pollTimer := none } ∧ t.ram = u.ram ∧ t.regs = lapsed.regs ∧
      t.table = { u.table with workers := u.table.workers.map fun e =>
        (e.1, { e.2 with interval := e.2.interval.map fun i => { i with due := false } }) } ∧
      ∀ i : Fin 15, t.zones[i] = { s.zones[i] with
        reserved := s.zones[i].reserved -
          s.doors.toList.countP (fun e => e.grant.any fun g => g.target.val == i.val + 1) } := by
  intro lapsed t
  obtain ⟨hjournal, htable⟩ := settleDoors_told .inactive .halt (SameJournal.refl u) rfl rfl rfl
    fun _ _ _ => .inl (gatesRun_halted h.halted)
  have hzones := (settleDoors_haltFrame h.halted .inactive .halt).2
  rw [lapseTold_congr h.doors h.clock h.badges] at hjournal
  have hlapsed : SameJournal lapsed (settleDoors .inactive .halt u) := hjournal
  have hram : lapsed.ram = u.ram := foldl_lapseTold_halted s _ h.halted
  have ht : t = haltRest (settleDoors .inactive .halt u) := rfl
  clear_value t lapsed
  generalize settleDoors .inactive .halt u = v at hlapsed htable hzones ht
  rw [haltRest_eq] at ht
  subst ht
  refine ⟨?_, hlapsed.ram.trans hram, hlapsed.regs, ?_, fun i => ?_⟩
  · exact congrArg (fun k : Link => { k with muster := none, pollTimer := none }) hlapsed.link
  · exact congrArg (fun k : WorkerTable => { k with workers := k.workers.map fun (e : Nat × Worker) =>
      (e.1, { e.2 with interval := e.2.interval.map fun (i : OpenInterval) => { i with due := false } }) })
      htable
  · have hzone := hzones i
    rw [h.zones, h.doors] at hzone
    exact hzone

/-- The request that HALT ends, returned at once in RUNNING and pending in ISOLATED. -/
theorem haltRequest_ends {s u : State} {q : Request} {su : Setup} {count resume : Option Nat} {now : Bool}
    (hq : s.link.request = some q) (hanswer : haltAnswer q s = (count, resume, u))
    (hqu : u.link.request = some q) (hsu : u.link.setup = some su) (ha : u.linkAnswers = []) :
    haltRequest now s = if now = true then answered su q.notify .haltedPartial count resume u
      else { u with link := { u.link with
        request := none
        ret := some ⟨.haltedPartial, count, resume, q.notify, u.link.draws⟩
        draws := u.link.draws + 1 } } := by
  have hpend : pendReturn .haltedPartial count resume u = { u with link := { u.link with
      request := none
      ret := some ⟨.haltedPartial, count, resume, q.notify, u.link.draws⟩
      draws := u.link.draws + 1 } } := by
    unfold pendReturn
    rw [hqu]
  unfold haltRequest
  rw [hq]
  dsimp only
  rw [hanswer]
  dsimp only
  rw [hpend]
  cases now with
  | false => rfl
  | true =>
    have hbare : { u with link := { u.link with request := none } }.linkAnswers = [] := ha
    exact settleReturn_pending hbare hsu rfl _ count resume q.notify

/-! ### The numbers of each request -/

section Answers

variable {q : Request} {s : State}

/-- The held output record dropped. -/
def outputDropped (s : State) : State := { s with link := { s.link with output := none } }

theorem haltAnswer_status {out : OutArea} (hstage : q.stage = .output) (hreq : q.req = .readStatus out) :
    haltAnswer q s = (some 0, some 0, outputDropped s) := by
  unfold haltAnswer
  rw [hstage, hreq]
  rfl

theorem haltAnswer_withdraw {slot : Nat} {force : Bool} {out : OutArea} (hstage : q.stage = .output)
    (hreq : q.req = .withdraw slot force out) : haltAnswer q s = (some 0, none, outputDropped s) := by
  unfold haltAnswer
  rw [hstage, hreq]
  rfl

theorem haltAnswer_deferred (hstage : q.stage = .deferred) : haltAnswer q s = (some 0, some 0, s) := by
  unfold haltAnswer
  rw [hstage]

theorem haltAnswer_checking (hstage : q.stage = .checking) : haltAnswer q s = (some 0, none, s) := by
  unfold haltAnswer
  rw [hstage]

theorem haltAnswer_copied {first last : Nat} {reset : Bool} {out : OutArea} {r : StatementRec}
    (hstage : q.stage = .output) (hreq : q.req = .statement first last reset out)
    (hout : s.link.output = some (.statement r)) :
    haltAnswer q s = (some q.written, some r.slot, outputDropped (undoCopy r s)) := by
  unfold haltAnswer
  rw [hstage, hreq, hout]
  rfl

theorem haltAnswer_uncopied {first last : Nat} {reset : Bool} {out : OutArea}
    (hstage : q.stage = .output) (hreq : q.req = .statement first last reset out)
    (hout : ∀ r : StatementRec, s.link.output ≠ some (.statement r)) :
    haltAnswer q s = (some q.written, some (resumeSlot s q.cursor last), outputDropped s) := by
  unfold haltAnswer
  rw [hstage, hreq]
  dsimp only
  split
  · next r h => exact absurd h (hout r)
  · rfl

theorem undoCopy_kept {r : StatementRec} (h : r.reset = false) : undoCopy r s = s := by
  unfold undoCopy
  rw [h]
  cases workerAt s r.slot <;> rfl

theorem undoCopy_reset {r : StatementRec} {w : Worker} (h : r.reset = true) (hw : workerAt s r.slot = some w) :
    undoCopy r s = setWorker r.slot { w with
      reg := min 65535 (w.reg + r.reg)
      night := min 65535 (w.night + r.night)
      ot := min 65535 (w.ot + r.ot)
      hol := min 65535 (w.hol + r.hol)
      saturated := w.saturated || r.saturated || decide (65535 < w.reg + r.reg ∨ 65535 < w.night + r.night ∨
        65535 < w.ot + r.ot ∨ 65535 < w.hol + r.hol) } s := by
  have hcut : (w.saturated || (decide (65535 < w.reg + r.reg) || decide (65535 < w.night + r.night) ||
      decide (65535 < w.ot + r.ot) || decide (65535 < w.hol + r.hol)) || r.saturated)
      = (w.saturated || r.saturated || decide (65535 < w.reg + r.reg ∨ 65535 < w.night + r.night ∨
        65535 < w.ot + r.ot ∨ 65535 < w.hol + r.hol)) := by
    rw [Bool.or_right_comm]
    simp only [Bool.decide_or, Bool.or_assoc]
  unfold undoCopy
  rw [hw]
  dsimp only
  rw [if_pos h, ← hcut]
  rfl

theorem haltAnswer_taken_statement {first last : Nat} {reset : Bool} {out : OutArea} (hstage : q.stage = .taken)
    (hreq : q.req = .statement first last reset out) :
    haltAnswer q s = (some 0, some (resumeSlot s first last), s) := by
  unfold haltAnswer
  rw [hstage, hreq]

theorem haltAnswer_taken_status {out : OutArea} (hstage : q.stage = .taken) (hreq : q.req = .readStatus out) :
    haltAnswer q s = (some 0, some 0, s) := by
  unfold haltAnswer
  rw [hstage, hreq]

theorem haltAnswer_taken_withdraw {slot : Nat} {force : Bool} {out : OutArea} (hstage : q.stage = .taken)
    (hreq : q.req = .withdraw slot force out) :
    haltAnswer q s = (if force = true then some 0 else none, none, s) := by
  unfold haltAnswer
  rw [hstage, hreq]
  cases force <;> rfl

theorem haltAnswer_taken_clearFault {door : Nat} (hstage : q.stage = .taken) (hreq : q.req = .clearFault door) :
    haltAnswer q s = (some 0, none, s) := by
  unfold haltAnswer
  rw [hstage, hreq]

theorem haltAnswer_taken_other (hstage : q.stage = .taken) (harea : outputArea q.req = none)
    (hother : ∀ door : Nat, q.req ≠ .clearFault door) : haltAnswer q s = (none, none, s) := by
  unfold haltAnswer
  rw [hstage]
  cases hreq : q.req with
  | withdraw slot force out | statement first last reset out | readStatus out =>
    rw [hreq] at harea
    cases harea
  | clearFault door => exact absurd hreq (hother door)
  | _ => rfl

end Answers

/-! ### The obligation -/

theorem musterCut_self {s : State} (h : s.link.muster = none ∨ s.regs.run = .isolated) : musterCut s = s := by
  unfold musterCut
  split
  · next m hm =>
    obtain h | h := h
    · rw [hm] at h
      cases h
    · exact if_neg (by rw [h]; decide)
  · rfl

theorem RequestEnded.setWorker {s u : State} {slot : Nat} {w v : Worker} (h : RequestEnded s u)
    (hw : workerAt s slot = some w) (hbadge : v.badge = w.badge) : RequestEnded s (setWorker slot v u) := by
  refine ⟨h.halted, h.doors, h.clock, h.zones, fun k => ?_⟩
  by_cases hk : k = slot
  · rw [hk, workerAt_setWorker_same, hw]
    exact hbadge
  · rw [workerAt_setWorker_other hk]
    exact h.badges k

/-- HALT while the gates run, with every access answered well: what it makes of the request, and then the
doors. -/
theorem exec_halt_ended {begun : Bool} {s u : State} (hgates : s.regs.run = .running ∨ s.regs.run = .isolated)
    (hmuster : s.link.muster = none ∨ s.regs.run = .isolated)
    (hwork : haltRequest (s.regs.run == .running) (setRun .halted s) = u) :
    exec (.halt begun) s = .next (haltRest (settleDoors .inactive .halt u)) := by
  rw [exec_halt, haltOp_gates hgates, haltRunning_eq, musterCut_self hmuster, ← hwork]
  rfl

/-- Settles O15: the frame of HALT for every answer of the memory link, and its request, return and records
where every access is answered well. -/
theorem haltStopsTheGates : Obligations.HaltStopsTheGates := by
  intro begun s
  refine ⟨fun h => congrArg Host.Outcome.next (haltOp_other h), fun h => ⟨?abandoned, ?loading⟩,
    fun h => ⟨_, congrArg Host.Outcome.next (haltOp_gates h), haltRunning_stops s⟩,
    fun hgates ha hmuster => ?exact⟩
  case abandoned => exact congrArg Host.Outcome.next (haltOp_loading h)
  case loading =>
    obtain ⟨t, ht, hregs, htable, hclock, hdoors, hlines, hbells, hfire, hlink, hram⟩ := abandonLoad_cases begun s
    refine ⟨_, congrArg Host.Outcome.next ((haltOp_loading h).trans ht), ?_, htable, hclock, hdoors, hlines,
      hbells, hfire, hlink, hram⟩
    rw [hregs]
  case exact =>
    intro halted dropped ended
    have hended {u : State} (hu : RequestEnded s u)
        (hwork : haltRequest (s.regs.run == .running) halted = u) : ended u :=
      ⟨_, exec_halt_ended hgates hmuster hwork, haltRest_ended hu⟩
    have hhalted : RequestEnded s halted := ⟨rfl, rfl, rfl, rfl, fun _ => rfl⟩
    have hdropped : RequestEnded s dropped := ⟨rfl, rfl, rfl, rfl, fun _ => rfl⟩
    refine ⟨fun hnone => hended hhalted ?none, fun q su hq hsu => ?_⟩
    case none =>
      unfold haltRequest
      rw [show halted.link.request = none from hnone]
    intro back
    have hback {count resume : Option Nat} {u : State} (hu : RequestEnded s u)
        (hanswer : haltAnswer q halted = (count, resume, u)) (hqu : u.link.request = some q)
        (hsuu : u.link.setup = some su) (hau : u.linkAnswers = []) : back count resume u := by
      refine hended ?_ ((haltRequest_ends (s := halted) hq hanswer hqu hsuu hau).trans
        (if_congr beq_iff_eq rfl rfl))
      split
      · exact hu.answered su q.notify .haltedPartial count resume
      · exact ⟨hu.halted, hu.doors, hu.clock, hu.zones, hu.badges⟩
    refine ⟨fun first last reset out hstage hreq => ⟨fun hout => ?_, fun r hout => ⟨fun hreset => ?_,
        fun w hreset hw => ?_⟩⟩,
      fun out hstage hreq => hback hdropped (haltAnswer_status hstage hreq) hq hsu ha,
      fun slot out hstage hreq => hback hdropped (haltAnswer_withdraw hstage hreq) hq hsu ha,
      fun hstage => hback hhalted (haltAnswer_deferred hstage) hq hsu ha,
      fun hstage => hback hhalted (haltAnswer_checking hstage) hq hsu ha,
      fun first last reset out hstage hreq =>
        hback hhalted (haltAnswer_taken_statement hstage hreq) hq hsu ha,
      fun out hstage hreq => hback hhalted (haltAnswer_taken_status hstage hreq) hq hsu ha,
      fun slot out hstage hreq => hback hhalted (haltAnswer_taken_withdraw hstage hreq) hq hsu ha,
      fun slot out hstage hreq => hback hhalted (haltAnswer_taken_withdraw hstage hreq) hq hsu ha,
      fun door hstage hreq => hback hhalted (haltAnswer_taken_clearFault hstage hreq) hq hsu ha,
      fun hstage harea hother => hback hhalted (haltAnswer_taken_other hstage harea hother) hq hsu ha⟩
    · exact hback hdropped (haltAnswer_uncopied hstage hreq hout) hq hsu ha
    · have hanswer := haltAnswer_copied (s := halted) hstage hreq hout
      rw [undoCopy_kept hreset] at hanswer
      exact hback hdropped hanswer hq hsu ha
    · have hanswer := haltAnswer_copied (s := halted) hstage hreq hout
      rw [undoCopy_reset (s := halted) hreset hw] at hanswer
      exact hback (hdropped.setWorker hw rfl) hanswer hq hsu ha

end Sys2Proof.Machine
end
